-- ==== Sys2Proof/Word.lean ====
section
/-!
DEFINITION. Word.lean: the bit-vector types of the AES-GCM-128 engine (spec/00_scope.md R8, R10 to R13).
A stream is kept as one bit vector whose most significant byte is the stream's byte 0, so that a hexadecimal literal
reads as the spec writes it (R10: "Hex literals of streams are written with the first byte leftmost").
-/

namespace Sys2Proof

/-- R10: a byte, `b[7]` most significant. -/
abbrev Byte := BitVec 8

/-- R13: a 32-bit machine word of the bus. -/
abbrev Word := BitVec 32

/-- R70: a byte offset within the 256-byte window. -/
abbrev Offset := BitVec 8

/-- R10: a stream of 16 bytes `s[0] .. s[15]`; `s[0]` is the most significant byte. -/
abbrev Stream16 := BitVec 128

/-- R10: a 12-byte stream, the IV `iv[0] .. iv[11]`; `iv[0]` is the most significant byte. -/
abbrev Stream12 := BitVec 96

/-- R12: 128 single bits `v(0) .. v(127)`; `v(0)` is the most significant bit. -/
abbrev BitVector := BitVec 128

/-- R154: a four-byte word `(a0, a1, a2, a3)` of the key schedule; `a0` is the most significant byte. -/
abbrev KeyWord := BitVec 32

end Sys2Proof
end

