-- ==== Sys2Proof/Syntax.lean ====
section
/-!
DEFINITION. Syntax.lean: the engine's commands, one constructor per row of spec/opcode_table.json.
No command has an operand field: the operands are fixed registers (spec/30_encoding.md R100, R103).
-/

namespace Sys2Proof

/-- The six commands of spec/30_encoding.md R102. -/
inductive Instr where
  /-- AES_ENC, `encrypt_block` (spec/41_aes128.md R165). -/
  | aesEnc
  /-- GMUL, `gmul` (spec/42_ghash.md R205). -/
  | gmul
  /-- GHASH_STEP, one step of the GHASH fold (spec/42_ghash.md R206). -/
  | ghashStep
  /-- GCTR, one counter-mode block, the counter advanced afterwards (spec/43_gctr.md R232). -/
  | gctr
  /-- INC32, the counter increment alone (spec/43_gctr.md R233). -/
  | inc32
  /-- AES_GCM_ENC, single-block authenticated encryption (spec/44_aes_gcm.md R257). -/
  | aesGcmEnc
  deriving DecidableEq, Repr

end Sys2Proof
end

