-- ==== Sys2Proof/Machine/Bus.lean ====
section
/-!
DEFINITION. Machine/Bus.lean: the types of the host's side: registers of the window, transactions, responses, events
(spec/10_state.md R32; spec/20_memory.md R70, R71; spec/30_encoding.md R106, R107; spec/60_exceptions.md R282;
spec/70_reset_and_hazards.md R320, R346).
-/

namespace Sys2Proof.Machine

/-- The nine data registers (R32). -/
inductive DataReg where
  | key | din | iv | aad | hkey | ghy | ctr | dout | tag
  deriving DecidableEq, Repr

/-- What an offset of the window selects (R71): a control register, word `k` of a data register, or reserved space. -/
inductive WindowReg where
  | id | ctrl | status | cmd
  | data (r : DataReg) (k : Nat)
  | reserved
  deriving DecidableEq, Repr

/-- A bus transaction (R70): `MemRead(off, size)` or `MemWrite(off, size, wdata)`. -/
inductive Txn where
  | read (off : Offset) (size : Nat)
  | write (off : Offset) (size : Nat) (wdata : Word)
  deriving DecidableEq, Repr

/-- The response to a transaction (R70): read data, `ok`, or BusError. -/
inductive Response where
  | rdata (v : Word)
  | ok
  | busError
  deriving DecidableEq, Repr

/-- One entry of the transcript (R345): a transaction and the response it got. -/
structure BusRecord where
  txn : Txn
  response : Response
  deriving DecidableEq, Repr

/-- The command errors (R282). -/
inductive CmdError where
  | illegalCmd
  | writeWhileBusy
  | cmdWhileBusy
  deriving DecidableEq, Repr

/-- What the outside world does to the engine (R346): a transaction, the WAIT loop of the host notation (R107), or the
reset event, which may find a transaction under way (R320). -/
inductive HostEvent where
  | txn (t : Txn)
  | wait
  | reset (underWay : Option Txn)
  deriving DecidableEq, Repr

/-- Who moves in the next step (R7): the engine completes the command in flight, the host takes its next event (and
`rest` remains), or nobody has a move; `illegal` is a state that no run from reset reaches (I7). -/
inductive Move where
  | complete (i : Instr)
  | host (e : HostEvent) (rest : List HostEvent)
  | idle
  | illegal
  deriving DecidableEq, Repr

end Sys2Proof.Machine
end

