-- ==== Sys2Proof/WellFormed.lean ====
section
/-!
DEFINITION. WellFormed.lean: the checks of form. A command has no operand field, so every `Instr` is well-formed; what can
be ill-formed is the command word a host writes (spec/30_encoding.md R100, R104) and a bus transaction (spec/20_memory.md R76).
-/

namespace Sys2Proof

/-- R100, R103: no command has a field to check. -/
def Instr.wellFormed : Instr → Bool
  | .aesEnc => true
  | .gmul => true
  | .ghashStep => true
  | .gctr => true
  | .inc32 => true
  | .aesGcmEnc => true

/-- R100: the MBZ field, bits [31:8], is zero. -/
def cmdWordMbzZero (v : Word) : Bool := v.extractLsb' 8 24 == 0

/-- R102: the OPCODE field, bits [7:0], is one of 0x01 to 0x06. -/
def cmdWordOpcodeKnown (v : Word) : Bool :=
  0x01 ≤ (v.extractLsb' 0 8).toNat && (v.extractLsb' 0 8).toNat ≤ 0x06

/-- R104: a legal command word passes both checks; every other word is illegal. -/
def cmdWordWellFormed (v : Word) : Bool := cmdWordMbzZero v && cmdWordOpcodeKnown v

/-- R76: "The engine accepts only `size = 4` at an offset with `off mod 4 = 0`." -/
def wordAccess (off : Offset) (size : Nat) : Bool := size == 4 && off.toNat % 4 == 0

/-- R76 for a transaction. -/
def Machine.Txn.wellFormed : Txn → Bool
  | .read off size => wordAccess off size
  | .write off size _ => wordAccess off size

end Sys2Proof
end

