-- ==== Sys2Proof/Decode.lean ====
section
/-!
DEFINITION. Decode.lean: the command word's decoder, total on all 2^32 words and rejecting by name, then the encoder
(spec/30_encoding.md R100 to R105; spec/opcode_table.json).
-/

namespace Sys2Proof

/-- What the decoder reads from a command word: a command, or why the word is illegal (R104). -/
inductive Decoded where
  | command (i : Instr)
  /-- Bits [31:8] are not all zero. -/
  | mbzNotZero
  /-- OPCODE is 0x00 or 0x07 to 0xFF. -/
  | unknownOpcode (op : Byte)
  deriving DecidableEq, Repr

/-- R100: the OPCODE field. -/
def opcodeField (v : Word) : Byte := v.extractLsb' 0 8

/-- R100: the MBZ field. -/
def mbzField (v : Word) : BitVec 24 := v.extractLsb' 8 24

/-- R102: the opcode map. -/
def decodeOpcode (op : Byte) : Decoded :=
  match op.toNat with
  | 0x01 => .command .aesEnc
  | 0x02 => .command .gmul
  | 0x03 => .command .ghashStep
  | 0x04 => .command .gctr
  | 0x05 => .command .inc32
  | 0x06 => .command .aesGcmEnc
  | _ => .unknownOpcode op

/-- R105: "The decoder is total on all 2^32 words". -/
def decode (v : Word) : Decoded :=
  if mbzField v = 0 then decodeOpcode (opcodeField v) else .mbzNotZero

/-- The command of a decoded word, where it has one. -/
def Decoded.command? : Decoded → Option Instr
  | .command i => some i
  | .mbzNotZero => none
  | .unknownOpcode _ => none

/-- R102: each command's OPCODE. -/
def Instr.opcode : Instr → Byte
  | .aesEnc => 0x01
  | .gmul => 0x02
  | .ghashStep => 0x03
  | .gctr => 0x04
  | .inc32 => 0x05
  | .aesGcmEnc => 0x06

/-- R100, R107: the command word `zext_32(OPCODE)`. -/
def encode (i : Instr) : Word := i.opcode.zeroExtend 32

/-- The host's question: what the decoder reads from the table's bits `w`. A command is one 32-bit bus word (R101), so the
table's bit 0 is the word's bit 0; bits of the word above `nbits` are 0, and no command is longer than 32 bits. -/
def decodeTableWord (nbits w : Nat) : Option Instr :=
  if nbits ≤ 32 then (decode (BitVec.ofNat 32 (w % 2 ^ nbits))).command? else none

end Sys2Proof
end

