-- ==== Sys2Proof/Machine/State.lean ====
section
/-!
DEFINITION. Machine/State.lean: the state, the ways a step can stop, and the state after reset
(spec/10_state.md R30 to R39, R51, R59). ID is a constant (`Config.idValue`), CMD "stores nothing" (R30), the reserved bits
of CTRL and STATUS read 0 and keep nothing (R34, R35), and the engine has no memory (spec/20_memory.md R81), so none of
these is a field.
-/

namespace Sys2Proof.Machine

/-- The machine: R30's architectural state, then the model's own fields for the host's side (log entries 1 to 3). -/
structure State where
  /-- CTRL[0], IE_DONE (R34). -/
  ieDone : Bool
  /-- CTRL[1], IE_ERR (R34). -/
  ieErr : Bool
  /-- STATUS[0], BUSY (R35, R37). -/
  busy : Bool
  /-- STATUS[1], DONE (R35, R38). -/
  done : Bool
  /-- STATUS[2], ERR (R35, R39). -/
  err : Bool
  /-- STATUS[11:8], ERRCODE (R35, R39). -/
  errCode : BitVec 4
  /-- CUR_OP: the command in flight, or none (R51). -/
  curOp : Option Instr
  /-- KEY (R42). -/
  key : Stream16
  /-- DIN (R43). -/
  din : Stream16
  /-- IV (R44). -/
  iv : Stream12
  /-- AAD (R45). -/
  aad : Stream16
  /-- HKEY (R46). -/
  hkey : Stream16
  /-- GHY (R47). -/
  ghy : Stream16
  /-- CTR (R48). -/
  ctr : Stream16
  /-- DOUT (R49). -/
  dout : Stream16
  /-- TAG (R49). -/
  tag : Stream16
  /-- Model: the host's events not yet taken, oldest first (log entry 1). -/
  pending : List HostEvent
  /-- Model: the transactions answered so far with their responses, newest first (R345; log entry 1). -/
  transcript : List BusRecord
  /-- Model: how many host events may still be ordered before the completion of the command in flight (log entry 2). -/
  lag : Nat
  /-- Model: commands accepted so far, so that no two acceptances of a run meet one state (log entry 2). -/
  accepted : Nat
  /-- Model: reset events so far, so that no two reset events of a run meet one state (log entry 3). -/
  resets : Nat
  /-- Model: the name of the run, which no step changes: runs alike in everything else may differ in their latencies (R340)
  and reset orders (log entries 2 and 3). -/
  run : Nat
  deriving DecidableEq, Repr

/-- The engine never stops with a fault: a BusError is a response and a command error is recorded in STATUS
(spec/60_exceptions.md R280, R288), so no step raises one and this type has no constructor. -/
inductive Fault
  deriving DecidableEq, Repr

/-- Why a step has no meaning. -/
inductive Refusal where
  /-- Raised by an arm of `exec` whose command has no meaning yet. Safe: nothing is claimed of the command. -/
  | notModelled (mnemonic : String)
  /-- Raised by `step` in a state that breaks R58 or holds an ERRCODE of 4 to 15; spec/93_implementation_defined.md I7
  asks for `refuse`. Safe: no run from reset reaches such a state. -/
  | illegalState
  deriving DecidableEq, Repr

/-- R59: the reset values; the model's own fields are empty (log entries 1 to 3). -/
def State.reset : State where
  ieDone := false
  ieErr := false
  busy := false
  done := false
  err := false
  errCode := 0
  curOp := none
  key := 0
  din := 0
  iv := 0
  aad := 0
  hkey := 0
  ghy := 0
  ctr := 0
  dout := 0
  tag := 0
  pending := []
  transcript := []
  lag := 0
  accepted := 0
  resets := 0
  run := 0

end Sys2Proof.Machine
end

