-- ==== Sys2Proof/Machine/Flags.lean ====
section
/-!
DEFINITION. Machine/Flags.lean: CTRL, STATUS and the interrupt output (spec/10_state.md R34 to R40, R58;
spec/60_exceptions.md R282, R286).
-/

namespace Sys2Proof.Machine

/-- R34: what a read of CTRL returns; the reserved bits read 0. -/
def State.ctrlWord (s : State) : Word :=
  ((BitVec.ofBool s.ieErr) ++ (BitVec.ofBool s.ieDone)).zeroExtend 32

/-- R35: `zext_32(ERRCODE) << 8 | ERR << 2 | DONE << 1 | BUSY`. -/
def State.statusWord (s : State) : Word :=
  (s.errCode.zeroExtend 32 <<< 8) ||| ((BitVec.ofBool s.err).zeroExtend 32 <<< 2) |||
    ((BitVec.ofBool s.done).zeroExtend 32 <<< 1) ||| (BitVec.ofBool s.busy).zeroExtend 32

/-- R34: `CTRL <- zext_32(wdata[1:0])`. -/
def State.writeCtrl (s : State) (v : Word) : State :=
  { s with ieDone := v.getLsbD 0, ieErr := v.getLsbD 1 }

/-- R36, R289: a write of 1 to bit 1 clears DONE, of 1 to bit 2 clears ERR and ERRCODE together; nothing else changes. -/
def State.writeStatus (s : State) (v : Word) : State :=
  { s with
    done := if v.getLsbD 1 then false else s.done
    err := if v.getLsbD 2 then false else s.err
    errCode := if v.getLsbD 2 then 0 else s.errCode }

/-- R286: `irq = (CTRL.IE_DONE AND STATUS.DONE) OR (CTRL.IE_ERR AND STATUS.ERR)`. -/
def State.irq (s : State) : Bool := (s.ieDone && s.done) || (s.ieErr && s.err)

/-- R282: the code of a command error. -/
def CmdError.code : CmdError → BitVec 4
  | .illegalCmd => 1
  | .writeWhileBusy => 2
  | .cmdWhileBusy => 3

/-- R58 and R39's "Values 4 to 15 are never produced": what holds in every reachable state, and I7's condition for a
state that the model may run. -/
def State.legal (s : State) : Bool :=
  (s.busy == s.curOp.isSome) && !(s.busy && s.done) && (s.err == (s.errCode != 0)) && decide (s.errCode.toNat ≤ 3)

end Sys2Proof.Machine
end

