-- ==== Sys2Proof/Config.lean ====
section
/-!
DEFINITION. Config.lean: what the spec fixes for the engine, and the free values for what it leaves open
(spec/00_scope.md R9; spec/93_implementation_defined.md I1, I2, I4, I15). A free value has no body: no proof can see it.
-/

namespace Sys2Proof

/-- R33, D25: the constant the ID register reads. -/
def Config.idValue : Word := 0x4D434741

/-- R9, D6: the window's size in bytes. -/
def Config.windowBytes : Nat := 256

/-- D24, I15 (OPEN): the page number of the window; the platform fixes it. -/
opaque Config.basePage : Nat

/-- R9: BASE, "a multiple of 256". -/
def Config.base : Nat := Config.windowBytes * Config.basePage

/-- D20, D37, I1, I2, I6 (OPEN): of a command accepted in a state, how many host events may be ordered before its
completion. It stands for LAT(op), which "may differ between implementations and between runs, and may depend on the
operands" (R340), on "KEY or data" (R341): so it takes the command and the whole state, the operand registers, the run's name
`State.run` and the number of the acceptance `State.accepted` among it. It is a finite number, which is R340's weak fairness.
Log entry 2. -/
opaque Config.latency : Machine.State → Instr → Nat

/-- D36, I4 (OPEN), RESET_TXN_ORDER: whether the transaction under way when a reset event meets a state takes effect before
it. It takes the whole state, the run's name and the number of the reset event `State.resets` among it. Log entry 3. -/
opaque Config.txnBeforeReset : Machine.State → Machine.Txn → Bool

end Sys2Proof
end

