-- ==== Sys2Proof/Machine/Representation.lean ====
section
/-!
DEFINITION. Machine/Representation.lean: the representation utilities (spec/40_representation.md R130 to R137) and the byte
accessors they rest on (spec/00_scope.md R10 to R14).
-/

namespace Sys2Proof.Machine

/-- R10: byte `i` of a byte sequence held in `w` bits, byte 0 most significant. -/
def byteAt {w : Nat} (s : BitVec w) (i : Nat) : Byte := s.extractLsb' (w - 8 * (i + 1)) 8

/-- R10: the 12-byte stream whose byte `i` is `f i`. -/
def stream12OfBytes (f : Nat → Byte) : Stream12 :=
  f 0 ++ f 1 ++ f 2 ++ f 3 ++ f 4 ++ f 5 ++ f 6 ++ f 7 ++ f 8 ++ f 9 ++ f 10 ++ f 11

/-- R10: the stream whose byte `i` is `f i`. -/
def stream16OfBytes (f : Nat → Byte) : Stream16 :=
  f 0 ++ f 1 ++ f 2 ++ f 3 ++ f 4 ++ f 5 ++ f 6 ++ f 7 ++ f 8 ++ f 9 ++ f 10 ++ f 11 ++ f 12 ++ f 13 ++ f 14 ++ f 15

/-- R13: `be32`, the big-endian word of four bytes. -/
def be32 (a b c d : Byte) : BitVec 32 := a ++ b ++ c ++ d

/-- R13: `be64` of a number. -/
def be64 (n : Nat) : BitVec 64 := BitVec.ofNat 64 n

/-- R11: the AES state, a 4x4 byte matrix indexed `B[row][col]`. -/
abbrev Block := Vector (Vector Byte 4) 4

/-- R11: the block whose entry at `row`, `col` is `f row col`. -/
def blockOf (f : Fin 4 → Fin 4 → Byte) : Block := Vector.ofFn fun row => Vector.ofFn fun col => f row col

/-- R11: the entry `B[row][col]`. -/
def entry (b : Block) (row col : Fin 4) : Byte := (b[row])[col]

/-- R130: `B[r][c] = s[4*c + r]`. -/
def toBlock (s : Stream16) : Block := blockOf fun r c => byteAt s (4 * c.val + r.val)

/-- R131: `s[i] = B[i mod 4][i div 4]`. -/
def toStream (b : Block) : Stream16 := stream16OfBytes fun i => entry b (Fin.ofNat 4 i) (Fin.ofNat 4 (i / 4))

/-- R133: `t(j) = b[7 - j]`. -/
def byteToBits (b : Byte) : Vector Bool 8 := Vector.ofFn fun j => b.getLsbD (7 - j.val)

/-- R133: the sum over j in 0..7 of `t(j) * 2^(7-j)`. -/
def bitsToByte (t : Vector Bool 8) : Byte :=
  BitVec.ofNat 8 (∑ j : Fin 8, t[j].toNat * 2 ^ (7 - j.val))

/-- R12: bit `v(k)`, numbered from the most significant end. -/
def bitAt (v : BitVector) (k : Nat) : Bool := v.getMsbD k

/-- R134: a stream and its BitVector are the same 128 bits in the same order; that `v(8i + j) = s[i][7 - j]` is a law. -/
def streamToBits (s : Stream16) : BitVector := s

/-- R134: the inverse. -/
def bitsToStream (v : BitVector) : Stream16 := v

/-- R14, R135: byte-wise exclusive-or of two streams. -/
def streamXor (a b : Stream16) : Stream16 := a ^^^ b

/-- R14, R135: byte-wise exclusive-or of two four-byte words. -/
def wordXor (a b : KeyWord) : KeyWord := a ^^^ b

/-- R136: "shifts a 128-element bit vector right by one position, discarding bit 127 and inserting a zero at bit 0". -/
def bitwiseRightShift (v : BitVector) : BitVector := v >>> 1

/-- R137: the stream of 16 bytes 0x00. -/
def zeroBlock : Stream16 := 0

end Sys2Proof.Machine
end

