-- ==== Sys2Proof/Machine/Operands.lean ====
section
/-!
DEFINITION. Machine/Operands.lean: the data registers as the bus sees them: which register an offset selects
(spec/20_memory.md R71), how a word is packed (R72), and reading and writing one word of a register.
-/

namespace Sys2Proof.Machine

/-- R70: the window offset of a physical address; outside the window a transaction never reaches the engine. -/
def windowOffset (addr : Nat) : Option Offset :=
  if Config.base ≤ addr ∧ addr < Config.base + Config.windowBytes then some (BitVec.ofNat 8 (addr - Config.base)) else none

/-- R71, R74: the register at an offset; bits [7:4] select the register and bits [3:2] the word. -/
def selectReg (off : Offset) : WindowReg :=
  let k := (off.extractLsb' 2 2).toNat
  match (off.extractLsb' 4 4).toNat with
  | 0 => match k with
    | 0 => .id
    | 1 => .ctrl
    | 2 => .status
    | _ => .cmd
  | 1 => .data .key k
  | 2 => .data .din k
  | 3 => if k = 3 then .reserved else .data .iv k
  | 4 => .data .aad k
  | 5 => .data .hkey k
  | 6 => .data .ghy k
  | 7 => .data .ctr k
  | 8 => .data .dout k
  | 9 => .data .tag k
  | _ => .reserved

/-- R71: the base offset of a data register. -/
def DataReg.base : DataReg → Offset
  | .key => 0x10
  | .din => 0x20
  | .iv => 0x30
  | .aad => 0x40
  | .hkey => 0x50
  | .ghy => 0x60
  | .ctr => 0x70
  | .dout => 0x80
  | .tag => 0x90

/-- R71: how many words a data register has. -/
def DataReg.words : DataReg → Nat
  | .iv => 3
  | .key | .din | .aad | .hkey | .ghy | .ctr | .dout | .tag => 4

/-- R71, R75: DOUT and TAG are read-only to the host. -/
def DataReg.readOnly : DataReg → Bool
  | .dout | .tag => true
  | .key | .din | .iv | .aad | .hkey | .ghy | .ctr => false

/-- R72: word `k` of a stream, `s[4k] | s[4k+1] << 8 | s[4k+2] << 16 | s[4k+3] << 24`. -/
def packWord {w : Nat} (s : BitVec w) (k : Nat) : Word :=
  byteAt s (4 * k + 3) ++ byteAt s (4 * k + 2) ++ byteAt s (4 * k + 1) ++ byteAt s (4 * k)

/-- R72: byte `i` of a stream after a write of `v` to its word `k`: `s[4k+j] <- v[8j+7:8j]`, other bytes unchanged. -/
def writtenByte {w : Nat} (s : BitVec w) (k : Nat) (v : Word) (i : Nat) : Byte :=
  if i / 4 = k then v.extractLsb' (8 * (i % 4)) 8 else byteAt s i

/-- R72: a write to word `k` of a 16-byte register. -/
def unpackWord16 (s : Stream16) (k : Nat) (v : Word) : Stream16 := stream16OfBytes (writtenByte s k v)

/-- R72: a write to word `k` of the 12-byte register. -/
def unpackWord12 (s : Stream12) (k : Nat) (v : Word) : Stream12 := stream12OfBytes (writtenByte s k v)

/-- R31, R72: word `k` of a data register. -/
def State.dataWord (s : State) (r : DataReg) (k : Nat) : Word :=
  match r with
  | .key => packWord s.key k
  | .din => packWord s.din k
  | .iv => packWord s.iv k
  | .aad => packWord s.aad k
  | .hkey => packWord s.hkey k
  | .ghy => packWord s.ghy k
  | .ctr => packWord s.ctr k
  | .dout => packWord s.dout k
  | .tag => packWord s.tag k

/-- R31, R72: the plain store of a word into a data register; the read-only registers keep their value (R75). -/
def State.setDataWord (s : State) (r : DataReg) (k : Nat) (v : Word) : State :=
  match r with
  | .key => { s with key := unpackWord16 s.key k v }
  | .din => { s with din := unpackWord16 s.din k v }
  | .iv => { s with iv := unpackWord12 s.iv k v }
  | .aad => { s with aad := unpackWord16 s.aad k v }
  | .hkey => { s with hkey := unpackWord16 s.hkey k v }
  | .ghy => { s with ghy := unpackWord16 s.ghy k v }
  | .ctr => { s with ctr := unpackWord16 s.ctr k v }
  | .dout => s
  | .tag => s

end Sys2Proof.Machine
end

