-- ==== Sys2Proof/Machine/Ops.lean ====
section
/-!
DEFINITION. Machine/Ops.lean: the named operations: recording a command error, acceptance and completion of a command,
bus reads and writes, reset, and the two agents' moves (spec/10_state.md R39, R52 to R54; spec/20_memory.md R70 to R78;
spec/60_exceptions.md R281 to R285; spec/70_reset_and_hazards.md R320, R340).
-/

namespace Sys2Proof.Machine

/-- R39, R282: the engine's one way to take an error: the first error since ERR was cleared sets ERR and ERRCODE; a later
one changes nothing. The way back is `State.writeStatus` (R289). -/
def State.raiseCmdError (s : State) (e : CmdError) : State :=
  if s.err then s else { s with err := true, errCode := e.code }

/-- R52, the accepting branch: DONE <- 0, CUR_OP <- op, BUSY <- 1. The command's latency, which may depend on the command, its
operands and the run (R340, R341), is a free value (log entry 2). -/
def State.accept (s : State) (i : Instr) : State :=
  { s with
    done := false
    curOp := some i
    busy := true
    lag := Config.latency s i
    accepted := s.accepted + 1 }

/-- R54, what every completion does beside writing its results: BUSY <- 0, DONE <- 1, CUR_OP <- none. -/
def State.complete (s : State) : State :=
  { s with busy := false, done := true, curOp := none, lag := 0 }

/-- R52: a host write to CMD. -/
def State.writeCmd (s : State) (v : Word) : State :=
  if s.busy then s.raiseCmdError .cmdWhileBusy
  else match decode v with
    | .command i => s.accept i
    | .mbzNotZero => { s with done := false }.raiseCmdError .illegalCmd
    | .unknownOpcode _ => { s with done := false }.raiseCmdError .illegalCmd

/-- R53, R75, R78: a host write to word `k` of a data register. -/
def State.writeData (s : State) (r : DataReg) (k : Nat) (v : Word) : State :=
  if r.readOnly then s
  else if s.busy then s.raiseCmdError .writeWhileBusy
  else s.setDataWord r k v

/-- R71, R74, R75, R77: what a read at an offset returns. -/
def State.busRead (s : State) (off : Offset) : Word :=
  match selectReg off with
  | .id => Config.idValue
  | .ctrl => s.ctrlWord
  | .status => s.statusWord
  | .cmd => 0
  | .data r k => s.dataWord r k
  | .reserved => 0

/-- R71, R74, R75, R78, R284: what a write at an offset does. -/
def State.busWrite (s : State) (off : Offset) (v : Word) : State :=
  match selectReg off with
  | .id => s
  | .ctrl => s.writeCtrl v
  | .status => s.writeStatus v
  | .cmd => s.writeCmd v
  | .data r k => s.writeData r k v
  | .reserved => s

/-- R76, R281: the effect of a transaction; one that is not a word access changes nothing. -/
def State.afterTxn (s : State) : Txn → State
  | .read _ _ => s
  | .write off size v => if wordAccess off size then s.busWrite off v else s

/-- R70, R281: the response to a transaction. -/
def State.response (s : State) : Txn → Response
  | .read off size => if wordAccess off size then .rdata (s.busRead off) else .busError
  | .write off size _ => if wordAccess off size then .ok else .busError

/-- R70, R345: a transaction, atomic, with its response in the transcript. -/
def State.runTxn (s : State) (t : Txn) : State :=
  { s.afterTxn t with transcript := ⟨t, s.response t⟩ :: s.transcript }

/-- R320: every architectural field takes its reset value and a command in flight is discarded; the host's side stays. -/
def State.applyReset (s : State) : State :=
  { State.reset with
    pending := s.pending
    transcript := s.transcript
    accepted := s.accepted
    resets := s.resets + 1
    run := s.run }

/-- R320, D36: the reset event. A transaction under way takes effect before it or never, a free value (log entry 3). -/
def State.resetEvent (s : State) : Option Txn → State
  | none => s.applyReset
  | some t => if Config.txnBeforeReset s t then (s.runTxn t).applyReset else s.applyReset

/-- R107: the offset of STATUS, which WAIT reads. -/
def statusOffset : Offset := 0x08

/-- R41: the offset of CMD. -/
def cmdOffset : Offset := 0x0C

/-- R107: WAIT's exit test on the STATUS word, `(s & 0x6) != 0`. -/
def waitExits (status : Word) : Bool := status &&& 0x6 != 0

/-- R107: one turn of the WAIT loop: a read of STATUS, after which the loop goes on while DONE and ERR are 0. -/
def State.waitTurn (s : State) : State :=
  let t := s.runTxn (.read statusOffset 4)
  if waitExits s.statusWord then t else { t with pending := .wait :: s.pending }

/-- R7, R346: the host's move: its event `e` taken, `rest` left, one event fewer before the completion in flight. -/
def State.hostMove (s : State) (e : HostEvent) (rest : List HostEvent) : State :=
  let s := { s with pending := rest, lag := s.lag - 1 }
  match e with
  | .txn t => s.runTxn t
  | .wait => s.waitTurn
  | .reset u => s.resetEvent u

/-- R7, R54, R84, R340: who moves next. Completion is enabled exactly while a command is in flight; it comes when the host
has no event left or when `lag` has run out. A state that breaks R58 is refused (I7). -/
def State.nextMove (s : State) : Move :=
  if s.legal then
    match s.curOp, s.pending with
    | some i, [] => .complete i
    | some i, e :: rest => if s.lag = 0 then .complete i else .host e rest
    | none, [] => .idle
    | none, e :: rest => .host e rest
  else .illegal

/-- The host's question (Step.lean's `withFetchWord`): the command word `w` brought to the point where the next step runs
it. A command word is not fetched (R86): the host writes it to CMD. For a legal word this is the state that acceptance
leaves (R52), with completion next; for an illegal one, the host's write of it to CMD on an idle engine comes next. -/
def State.placeCommand (s : State) (nbits w : Nat) : State :=
  match decodeTableWord nbits w with
  | some i => { s.accept i with lag := 0 }
  | none =>
    { s with
      busy := false
      curOp := none
      pending := .txn (.write cmdOffset 4 (BitVec.ofNat 32 (w % 2 ^ nbits))) :: s.pending }

end Sys2Proof.Machine
end

