-- ==== Sys2Proof/Machine/Aes.lean ====
section
/-!
DEFINITION. Machine/Aes.lean: the AES-128 key scheduler and round engine, and AES_ENC (spec/41_aes128.md R150 to R165;
spec/90_conflicts.md C1).
-/

namespace Sys2Proof.Machine

/-- R150: the S-box table, one row of 16 entries a stream. -/
def sboxRows : List Stream16 :=
  [0x637c777bf26b6fc53001672bfed7ab76,
   0xca82c97dfa5947f0add4a2af9ca472c0,
   0xb7fd9326363ff7cc34a5e5f171d83115,
   0x04c723c31896059a071280e2eb27b275,
   0x09832c1a1b6e5aa0523bd6b329e32f84,
   0x53d100ed20fcb15b6acbbe394a4c58cf,
   0xd0efaafb434d338545f9027f503c9fa8,
   0x51a3408f929d38f5bcb6da2110fff3d2,
   0xcd0c13ec5f974417c4a77e3d645d1973,
   0x60814fdc222a908846eeb814de5e0bdb,
   0xe0323a0a4906245cc2d3ac629195e479,
   0xe7c8376d8dd54ea96c56f4ea657aae08,
   0xba78252e1ca6b4c6e8dd741f4bbd8b8a,
   0x703eb5664803f60e613557b986c11d9e,
   0xe1f8981169d98e949b1e87e9ce5528df,
   0x8ca1890dbfe6426841992d0fb054bb16]

/-- R150: "`S(x)` is the entry at row `x >> 4`, column `x & 0xF`". -/
def sbox (x : Byte) : Byte := byteAt (sboxRows.getD (x >>> 4).toNat 0) (x &&& 0xF).toNat

/-- R152: doubling in GF(2^8). -/
def xtime (b : Byte) : Byte := (b <<< 1) ^^^ (if b.getLsbD 7 then 0x1B else 0x00)

/-- R152: the sum of `xtime^k(a)` over the lowest `n` bits `k` of `b` that are set. -/
def gf8MulBits (a b : Byte) : Nat → Byte
  | 0 => 0
  | n + 1 => gf8MulBits a b n ^^^ (if b.getLsbD n then Nat.iterate xtime n a else 0)

/-- R152: multiplication in GF(2^8). -/
def gf8Mul (a b : Byte) : Byte := gf8MulBits a b 8

/-- R151: the affine map of the S-box construction, applied to `b = inv(x)`. -/
def sboxAffine (b : Byte) : Byte :=
  b ^^^ b.rotateRight 4 ^^^ b.rotateRight 5 ^^^ b.rotateRight 6 ^^^ b.rotateRight 7 ^^^ 0x63

/-- R153: `rc[1] = 0x01` and `rc[j+1] = xtime(rc[j])`; there is no `rc[0]`, and nothing reads it. -/
def roundConstant : Nat → Byte
  | 0 => 0x00
  | 1 => 0x01
  | j + 2 => xtime (roundConstant (j + 1))

/-- R153: `Rcon[j] = (rc[j], 0x00, 0x00, 0x00)`. -/
def rcon (j : Nat) : KeyWord := be32 (roundConstant j) 0x00 0x00 0x00

/-- R155: `RotWord((a0, a1, a2, a3)) = (a1, a2, a3, a0)`. -/
def rotWord (a : KeyWord) : KeyWord := be32 (byteAt a 1) (byteAt a 2) (byteAt a 3) (byteAt a 0)

/-- R156: S applied to each byte. -/
def subWord (a : KeyWord) : KeyWord :=
  be32 (sbox (byteAt a 0)) (sbox (byteAt a 1)) (sbox (byteAt a 2)) (sbox (byteAt a 3))

/-- R154: `w[i] = (KEY[4i], KEY[4i+1], KEY[4i+2], KEY[4i+3])`. -/
def keyWord (key : Stream16) (i : Nat) : KeyWord :=
  be32 (byteAt key (4 * i)) (byteAt key (4 * i + 1)) (byteAt key (4 * i + 2)) (byteAt key (4 * i + 3))

/-- R157: the `temp` of word `i`, from the word before it. -/
def scheduleTemp (i : Nat) (prev : KeyWord) : KeyWord :=
  if i % 4 = 0 then wordXor (subWord (rotWord prev)) (rcon (i / 4)) else prev

/-- R157: the words `w[n+3], ..., w[0]`, newest first. -/
def expandDown (key : Stream16) : Nat → List KeyWord
  | 0 => [keyWord key 3, keyWord key 2, keyWord key 1, keyWord key 0]
  | n + 1 =>
    wordXor ((expandDown key n).getD 3 0) (scheduleTemp (n + 4) ((expandDown key n).getD 0 0)) :: expandDown key n

/-- R157: `expand(KEY) -> w[0..43]`. -/
def expand (key : Stream16) : List KeyWord := (expandDown key 40).reverse

/-- R157: word `i` of a schedule. -/
def scheduleWord (w : List KeyWord) (i : Nat) : KeyWord := w.getD i 0

/-- R158: `rk[r] = w[4r] || w[4r+1] || w[4r+2] || w[4r+3]`. -/
def roundKey (w : List KeyWord) (r : Nat) : Stream16 :=
  scheduleWord w (4 * r) ++ scheduleWord w (4 * r + 1) ++ scheduleWord w (4 * r + 2) ++ scheduleWord w (4 * r + 3)

/-- R159: `B[row][c] XOR w[4r + c][row]`. -/
def addRoundKey (w : List KeyWord) (r : Nat) (b : Block) : Block :=
  blockOf fun row c => entry b row c ^^^ byteAt (scheduleWord w (4 * r + c.val)) row.val

/-- R160: S on every byte. -/
def subBytes (b : Block) : Block := blockOf fun row c => sbox (entry b row c)

/-- R161: `B'[row][c] = B[row][(c + row) mod 4]`. -/
def shiftRows (b : Block) : Block := blockOf fun row c => entry b row (c + row)

/-- R162: `B'[r][c] = 2*a_r XOR 3*a_(r+1) XOR a_(r+2) XOR a_(r+3)`, rows taken mod 4, with `2*a = xtime(a)` and
`3*a = xtime(a) XOR a`: the four lines of the rule, which are one line rotated. -/
def mixColumns (b : Block) : Block :=
  blockOf fun r c =>
    xtime (entry b r c) ^^^ (xtime (entry b (r + 1) c) ^^^ entry b (r + 1) c) ^^^ entry b (r + 2) c ^^^ entry b (r + 3) c

/-- R163: the state after rounds 0 to `r`, for `r` at most 9. -/
def roundsTo (w : List KeyWord) (b : Block) : Nat → Block
  | 0 => addRoundKey w 0 b
  | r + 1 => addRoundKey w (r + 1) (mixColumns (shiftRows (subBytes (roundsTo w b r))))

/-- R163, R164: `encrypt_block(in, key)`; round 10 has no MixColumns. (Irreducible for proofs only: unfold it by name.) -/
@[irreducible] def encryptBlock (input key : Stream16) : Stream16 :=
  toStream (addRoundKey (expand key) 10 (shiftRows (subBytes (roundsTo (expand key) (toBlock input) 9))))

/-- R165, AES_ENC at completion: `DOUT <- encrypt_block(DIN, KEY)`. -/
def execAesEnc (s : State) : Host.Outcome State Fault Refusal :=
  .next { s with dout := encryptBlock s.din s.key }.complete

end Sys2Proof.Machine
end

