-- ==== Sys2Proof/Machine/Gctr.lean ====
section
/-!
DEFINITION. Machine/Gctr.lean: the counter increment, the keystream generator, GCTR and INC32 (spec/43_gctr.md R230 to R233).
-/

namespace Sys2Proof.Machine

/-- R230: bytes 12 to 15 of a counter block as a 32-bit big-endian counter. -/
def counterWord (cb : Stream16) : BitVec 32 := be32 (byteAt cb 12) (byteAt cb 13) (byteAt cb 14) (byteAt cb 15)

/-- R230: byte `i` of `inc32(cb)`: bytes 0 to 11 stay, bytes 12 to 15 are those of `(n + 1) mod 2^32`. -/
def inc32Byte (cb : Stream16) (i : Nat) : Byte :=
  if i < 12 then byteAt cb i else byteAt (counterWord cb + 1) (i - 12)

/-- R230: `inc32(cb)`. -/
def inc32 (cb : Stream16) : Stream16 := stream16OfBytes (inc32Byte cb)

/-- R231: `gctr(key, icb, p) = stream_xor(p, encrypt_block(icb, key))`. -/
def gctr (key icb p : Stream16) : Stream16 := streamXor p (encryptBlock icb key)

/-- R232, GCTR at completion, both writes at once from the values held at acceptance:
`DOUT <- gctr(KEY, CTR, DIN)` and `CTR <- inc32(CTR)`. -/
def execGctr (s : State) : Host.Outcome State Fault Refusal :=
  .next { s with dout := gctr s.key s.ctr s.din, ctr := inc32 s.ctr }.complete

/-- R233, INC32 at completion: `CTR <- inc32(CTR)`. -/
def execInc32 (s : State) : Host.Outcome State Fault Refusal :=
  .next { s with ctr := inc32 s.ctr }.complete

end Sys2Proof.Machine
end

