-- ==== Sys2Proof/Machine/Ghash.lean ====
section
/-!
DEFINITION. Machine/Ghash.lean: the GF(2^128) multiplier, GHASH, GMUL and GHASH_STEP (spec/42_ghash.md R200 to R206;
spec/90_conflicts.md C2).
-/

namespace Sys2Proof.Machine

/-- R201: the reduction constant 0xE1 in byte 0 of a stream. -/
def reductionStream : Stream16 := 0xe1000000000000000000000000000000

/-- R201: multiplication by the generator; the constant goes into byte 0 of the SHIFTED value (C2). -/
def mulx (a : Stream16) : Stream16 :=
  if bitAt (streamToBits a) 127 then
    streamXor (bitsToStream (bitwiseRightShift (streamToBits a))) reductionStream
  else bitsToStream (bitwiseRightShift (streamToBits a))

/-- R203: the loop over the bits of `x` from bit `i` on, `n` of them left, with the accumulators Z and A. -/
def gmulLoop (x : Stream16) : (n i : Nat) → (z a : Stream16) → Stream16
  | 0, _, z, _ => z
  | n + 1, i, z, a => gmulLoop x n (i + 1) (if bitAt (streamToBits x) i then streamXor z a else z) (mulx a)

/-- R203: `gmul(x, y)`, from bit 0, Z = zero_block, A = y. (Irreducible for proofs only: unfold it by name.) -/
@[irreducible] def gmul (x y : Stream16) : Stream16 := gmulLoop x 128 0 zeroBlock y

/-- R204, R206: one step of the fold, `gmul(Y XOR X_i, H)`. -/
def ghashFold (h y x : Stream16) : Stream16 := gmul (streamXor y x) h

/-- R204: `ghash(H, X_1 .. X_N)`. -/
def ghash (h : Stream16) (xs : List Stream16) : Stream16 := xs.foldl (ghashFold h) zeroBlock

/-- R205, GMUL at completion: `DOUT <- gmul(DIN, HKEY)`. -/
def execGmul (s : State) : Host.Outcome State Fault Refusal :=
  .next { s with dout := gmul s.din s.hkey }.complete

/-- R206, GHASH_STEP at completion: `GHY <- gmul(stream_xor(GHY, DIN), HKEY)`. -/
def execGhashStep (s : State) : Host.Outcome State Fault Refusal :=
  .next { s with ghy := ghashFold s.hkey s.ghy s.din }.complete

end Sys2Proof.Machine
end

