-- ==== Sys2Proof/Machine/AesGcm.lean ====
section
/-!
DEFINITION. Machine/AesGcm.lean: the AES-GCM composition and AES_GCM_ENC (spec/44_aes_gcm.md R250 to R257).
-/

namespace Sys2Proof.Machine

/-- R250: `H = encrypt_block(zero_block, KEY)`. -/
def hashSubkey (key : Stream16) : Stream16 := encryptBlock zeroBlock key

/-- R251: `J0 = IV || 00 00 00 01`. -/
def initialCounter (iv : Stream12) : Stream16 := iv ++ 0x00000001#32

/-- R252: `LEN = be64(128) || be64(128)`, the bit lengths of the one AAD block and the one ciphertext block. -/
def lengthBlock : Stream16 := be64 128 ++ be64 128

/-- R253: `C = gctr(KEY, inc32(J0), P)`. -/
def gcmCiphertext (key : Stream16) (iv : Stream12) (p : Stream16) : Stream16 := gctr key (inc32 (initialCounter iv)) p

/-- R254, R255: `S = ghash(H, [AAD, C, LEN])`. -/
def gcmAuthValue (key aad c : Stream16) : Stream16 := ghash (hashSubkey key) [aad, c, lengthBlock]

/-- R256: `T = gctr(KEY, J0, S)`. -/
def gcmTag (key : Stream16) (iv : Stream12) (aad c : Stream16) : Stream16 :=
  gctr key (initialCounter iv) (gcmAuthValue key aad c)

/-- R257, AES_GCM_ENC at completion: `DOUT <- C` and `TAG <- T` at once. -/
def execAesGcmEnc (s : State) : Host.Outcome State Fault Refusal :=
  .next
    { s with
      dout := gcmCiphertext s.key s.iv s.din
      tag := gcmTag s.key s.iv s.aad (gcmCiphertext s.key s.iv s.din) }.complete

end Sys2Proof.Machine
end

