-- ==== Sys2Proof/Machine/Dispatch.lean ====
section
/-!
DEFINITION. Machine/Dispatch.lean: one arm per command (spec/10_state.md R54, Semantics(CUR_OP)): `exec i s` is the
completion of command `i`.
-/

namespace Sys2Proof.Machine

def exec (i : Instr) (s : State) : Host.Outcome State Fault Refusal :=
  match i with
  | .aesEnc => Sys2Proof.Machine.execAesEnc s
  | .gmul => Sys2Proof.Machine.execGmul s
  | .ghashStep => Sys2Proof.Machine.execGhashStep s
  | .gctr => Sys2Proof.Machine.execGctr s
  | .inc32 => Sys2Proof.Machine.execInc32 s
  | .aesGcmEnc => Sys2Proof.Machine.execAesGcmEnc s

end Sys2Proof.Machine
end

