-- ==== Sys2Proof/Machine/Step.lean ====
section
/-!
DEFINITION. Machine/Step.lean: one step of the machine: one agent's move (spec/00_scope.md R7; spec/20_memory.md R83).
-/

namespace Sys2Proof.Machine

/-- One step: the engine completes the command in flight, or the host takes its next event, or nobody has a move and
every register keeps its value (spec/60_exceptions.md R305). -/
def step (s : State) : Host.Outcome State Fault Refusal :=
  match s.nextMove with
  | .complete i => exec i s
  | .host e rest => .next (s.hostMove e rest)
  | .idle => .next s
  | .illegal => .refused .illegalState

/-- `s` with the command word of the table's bits `w` placed so that the very next step runs it (`State.placeCommand`; log
entry 5). -/
def State.withFetchWord (s : State) (nbits w : Nat) : State := s.placeCommand nbits w

end Sys2Proof.Machine
end

