-- ==== Sys2Proof/Machine/HostProgram.lean ====
section
/-!
DEFINITION. Machine/HostProgram.lean: the host's program notation and the exact expansions of its pseudo-instructions
(spec/30_encoding.md R106, R107).
-/

namespace Sys2Proof.Machine

/-- R106: `WR off, value`. -/
def hostWr (off : Offset) (value : Word) : HostEvent := .txn (.write off 4 value)

/-- R106: `RD off`. -/
def hostRd (off : Offset) : HostEvent := .txn (.read off 4)

/-- R106: `WRn off, value`. -/
def hostWrSized (n : Nat) (off : Offset) (value : Word) : HostEvent := .txn (.write off n value)

/-- R106: `RDn off`. -/
def hostRdSized (n : Nat) (off : Offset) : HostEvent := .txn (.read off n)

/-- R107: `LOAD REG, <32 hex digits>`: four writes. -/
def hostLoad16 (r : DataReg) (s : Stream16) : List HostEvent :=
  [hostWr r.base (packWord s 0), hostWr (r.base + 4) (packWord s 1), hostWr (r.base + 8) (packWord s 2),
   hostWr (r.base + 12) (packWord s 3)]

/-- R107: `LOAD IV, <24 hex digits>`: three writes. -/
def hostLoadIv (s : Stream12) : List HostEvent :=
  [hostWr DataReg.iv.base (packWord s 0), hostWr (DataReg.iv.base + 4) (packWord s 1),
   hostWr (DataReg.iv.base + 8) (packWord s 2)]

/-- R107: `STORE REG`: four reads, three for IV. -/
def hostStore (r : DataReg) : List HostEvent :=
  (List.range r.words).map fun k => hostRd (r.base + BitVec.ofNat 8 (4 * k))

/-- R107: the stream a STORE of a 16-byte register reads, "unpacked per 20_memory.md rule R72" from its four words. -/
def storedStream16 (w0 w1 w2 w3 : Word) : Stream16 :=
  unpackWord16 (unpackWord16 (unpackWord16 (unpackWord16 zeroBlock 0 w0) 1 w1) 2 w2) 3 w3

/-- R107: the stream a STORE of IV reads, unpacked from its three words. -/
def storedIv (w0 w1 w2 : Word) : Stream12 := unpackWord12 (unpackWord12 (unpackWord12 0 0 w0) 1 w1) 2 w2

/-- R107: `CMD <mnemonic>`: `WR 0x0C, zext_32(OPCODE)`. -/
def hostCmd (i : Instr) : HostEvent := hostWr cmdOffset (encode i)

/-- R107: `ACK`: `WR 0x08, 0x00000006`. -/
def hostAck : HostEvent := hostWr statusOffset 0x00000006

end Sys2Proof.Machine
end

