-- ==== Sys2Proof/Safety.lean ====
section
/-!
DEFINITION. Safety.lean: the terms the claims use: whose move it is, which registers two states share, when a run is over,
what an observer sees and what a run without host errors is (spec/00_scope.md R17; spec/10_state.md R30, R32;
spec/70_reset_and_hazards.md R345, R346).
-/

namespace Sys2Proof.Machine

/-- The host moves next and takes `e`: a legal state in which no completion is ordered first (R84). -/
abbrev State.HostTurn (s : State) (e : HostEvent) (rest : List HostEvent) : Prop :=
  s.legal = true ∧ s.pending = e :: rest ∧ (s.busy = true → s.lag ≠ 0)

/-- The engine moves next and completes `i`: a legal state with `i` in flight in which the host has no event that is
ordered before the completion (R54, R84, R345). -/
abbrev State.EngineTurn (s : State) (i : Instr) : Prop :=
  s.legal = true ∧ s.curOp = some i ∧ (s.lag = 0 ∨ s.pending = [])

/-- `s` after the host's event is taken from the queue and before its effect. -/
def State.taken (s : State) (rest : List HostEvent) : State := { s with pending := rest, lag := s.lag - 1 }

/-- `s` with one more entry in the transcript. -/
def State.recorded (s : State) (t : Txn) (r : Response) : State := { s with transcript := ⟨t, r⟩ :: s.transcript }

/-- The operand registers a host may write (R32): KEY, DIN, IV, AAD, HKEY, GHY, CTR. -/
abbrev State.SameOperands (s t : State) : Prop :=
  t.key = s.key ∧ t.din = s.din ∧ t.iv = s.iv ∧ t.aad = s.aad ∧ t.hkey = s.hkey ∧ t.ghy = s.ghy ∧ t.ctr = s.ctr

/-- All nine data registers (R32). -/
abbrev State.SameData (s t : State) : Prop := s.SameOperands t ∧ t.dout = s.dout ∧ t.tag = s.tag

/-- R102's column "reads": the operand registers of a command hold the same values in both states. -/
def State.AgreeOnOperands (i : Instr) (s t : State) : Prop :=
  match i with
  | .aesEnc => s.din = t.din ∧ s.key = t.key
  | .gmul => s.din = t.din ∧ s.hkey = t.hkey
  | .ghashStep => s.ghy = t.ghy ∧ s.din = t.din ∧ s.hkey = t.hkey
  | .gctr => s.din = t.din ∧ s.key = t.key ∧ s.ctr = t.ctr
  | .inc32 => s.ctr = t.ctr
  | .aesGcmEnc => s.key = t.key ∧ s.din = t.din ∧ s.iv = t.iv ∧ s.aad = t.aad

/-- R102's column "writes at completion": whether command `i` writes register `r`. -/
def commandWrites (i : Instr) (r : DataReg) : Bool :=
  match i with
  | .aesEnc => r == .dout
  | .gmul => r == .dout
  | .ghashStep => r == .ghy
  | .gctr => r == .dout || r == .ctr
  | .inc32 => r == .ctr
  | .aesGcmEnc => r == .dout || r == .tag

/-- R345: a run is over when its last transaction has taken effect and no command is in flight. The rule "says nothing of a
run during which reset was asserted"; that the same test is used for such a run is the model's DESIGN CHOICE (log entry 14). -/
abbrev State.RunOver (s : State) : Prop := s.pending = [] ∧ s.busy = false

/-- R345: what is observed at the end of a run: the architectural state of R30 and the responses, oldest first. That a run
with a reset has an observation at all, and that the reset event leaves no entry in it, is the model's DESIGN CHOICE (log
entry 14). -/
structure Observation where
  ctrl : Word
  status : Word
  curOp : Option Instr
  key : Stream16
  din : Stream16
  iv : Stream12
  aad : Stream16
  hkey : Stream16
  ghy : Stream16
  ctr : Stream16
  dout : Stream16
  tag : Stream16
  responses : List BusRecord
  deriving DecidableEq, Repr

/-- R345: the observation of a state; of a run with a reset in it, DESIGN CHOICE (log entry 14). -/
def State.observe (s : State) : Observation where
  ctrl := s.ctrlWord
  status := s.statusWord
  curOp := s.curOp
  key := s.key
  din := s.din
  iv := s.iv
  aad := s.aad
  hkey := s.hkey
  ghy := s.ghy
  ctr := s.ctr
  dout := s.dout
  tag := s.tag
  responses := s.transcript.reverse

/-- R346: "no BusError response and STATUS.ERR = 0 at the end", the premise of a claim about a host program. -/
def State.noHostError (s : State) : Bool := !s.err && s.transcript.all fun r => r.response != .busError

/-- The blocks `xs` hashed by commands (R206): before each GHASH_STEP the host loads DIN with the block. -/
def ghashByCommands (s : State) : List Stream16 → Host.Outcome State Fault Refusal
  | [] => .next s
  | x :: xs =>
    match exec .ghashStep { s with din := x } with
    | .next t => ghashByCommands t xs
    | .fault f => .fault f
    | .refused r => .refused r

/-- Whether an event list holds a WAIT loop, whose number of reads is not fixed (R107). -/
def hasWait (es : List HostEvent) : Bool := es.any fun e => e == .wait

end Sys2Proof.Machine
end

