-- ==== Sys2Proof/Certificates/Slice0/Obligations.lean ====
section
/-!
DEFINITION. Certificates/Slice0/Obligations.lean: the statements for the provers. Each docstring names the rule of spec/ that
the statement formalises, or the rules and the log entries it rests on.
-/

open Sys2Proof Sys2Proof.Machine

/-! ### Encoding -/

/-- R105: `decode(v)` is the command of OPCODE `v[7:0]` exactly when `v[31:8] = 0` and OPCODE is in 0x01..0x06, and no
command otherwise; a write to CMD while BUSY = 1 is not decoded and raises CMD_WHILE_BUSY whatever the word. -/
def Obligations.DecoderIsTotalOnAllWords : Prop :=
  (∀ v : Word, (v.extractLsb' 8 24 = 0 ∧ 0x01 ≤ (v.extractLsb' 0 8).toNat ∧ (v.extractLsb' 0 8).toNat ≤ 0x06) →
    ∃ i, (decode v).command? = some i ∧ i.opcode = v.extractLsb' 0 8) ∧
  (∀ v : Word, ¬(v.extractLsb' 8 24 = 0 ∧ 0x01 ≤ (v.extractLsb' 0 8).toNat ∧ (v.extractLsb' 0 8).toNat ≤ 0x06) →
    (decode v).command? = none) ∧
  (∀ (s : State) (v : Word), s.busy = true → s.writeCmd v = s.raiseCmdError .cmdWhileBusy)

/-- R102's full-word patterns with R104: a word decodes to a command exactly when it is that command's one encoding, in
both directions and over all 2^32 words; so decode of encode is the identity. -/
def Obligations.DecodeAndEncodeAgree : Prop :=
  ∀ (i : Instr) (v : Word), decode v = .command i ↔ v = encode i

/-- R102 (OPCODE column): the six words written out from the table, and their decoding; 0x00000000 and 0x00000007 have
none. -/
def Obligations.SixCommandWordsDecode : Prop :=
  decode 0x00000001 = .command .aesEnc ∧ decode 0x00000002 = .command .gmul ∧
  decode 0x00000003 = .command .ghashStep ∧ decode 0x00000004 = .command .gctr ∧
  decode 0x00000005 = .command .inc32 ∧ decode 0x00000006 = .command .aesGcmEnc ∧
  (decode 0x00000000).command? = none ∧ (decode 0x00000007).command? = none ∧ (decode 0x00000101).command? = none

/-! ### Steps -/

/-- R54 with R84: when the completion of the command in flight is the next move, the step is `exec` of that command and
nothing is added around it. -/
def Obligations.StepRunsCommandInFlight : Prop :=
  ∀ (s : State) (i : Instr), s.EngineTurn i → step s = exec i s

/-- R52: a host write of `v` to CMD as the next move. While BUSY it raises CMD_WHILE_BUSY and changes nothing else; while
idle it clears DONE, and then raises ILLEGAL_CMD for an illegal word (BUSY stays 0) or sets CUR_OP and BUSY for a legal one.
Every other register keeps its value; the response is `ok`. (`lag` and `accepted` are the model's own fields, log entry 2; what
acceptance puts into them is not stated.) -/
def Obligations.CommandWriteAcceptsOrRecordsError : Prop :=
  ∀ (s : State) (v : Word) (rest : List HostEvent), s.HostTurn (.txn (.write 0x0C 4 v)) rest →
    (s.busy = true →
      step s = .next (({ s.taken rest with
        err := true, errCode := if s.err then s.errCode else 3 }).recorded (.write 0x0C 4 v) .ok)) ∧
    (s.busy = false →
      ¬(v.extractLsb' 8 24 = 0 ∧ 0x01 ≤ (v.extractLsb' 0 8).toNat ∧ (v.extractLsb' 0 8).toNat ≤ 0x06) →
      step s = .next (({ s.taken rest with
        done := false, err := true, errCode := if s.err then s.errCode else 1 }).recorded (.write 0x0C 4 v) .ok)) ∧
    (s.busy = false → ∀ i : Instr, v.extractLsb' 8 24 = 0 → v.extractLsb' 0 8 = i.opcode →
      ∃ lag accepted, step s = .next (({ s.taken rest with
        done := false, curOp := some i, busy := true, lag := lag, accepted := accepted }).recorded (.write 0x0C 4 v) .ok))

/-- R104: OPCODE 0x00, OPCODE 0x07 to 0xFF and any word with a non-zero MBZ field are illegal: written while BUSY = 0 they
clear DONE, start nothing and record ILLEGAL_CMD (code 1, the first error kept). -/
def Obligations.EveryUnlistedWordIsIllegal : Prop :=
  ∀ (s : State) (v : Word), s.busy = false →
    (v.extractLsb' 0 8 = 0x00 ∨ 0x07 ≤ (v.extractLsb' 0 8).toNat ∨ v.extractLsb' 8 24 ≠ 0) →
    (decode v).command? = none ∧
    s.writeCmd v = { s with done := false, err := true, errCode := if s.err then s.errCode else 1 }

/-- The model's `withFetchWord` (log entry 5): from every legal state, the next step after placing a command's word is
`exec` of that command, on a state that has the command in flight as R52 leaves it and the operands untouched. -/
def Obligations.PlacedCommandRunsNext : Prop :=
  ∀ (s : State) (i : Instr), s.legal = true →
    step (s.withFetchWord 32 (encode i).toNat) = exec i (s.withFetchWord 32 (encode i).toNat) ∧
    s.withFetchWord 32 (encode i).toNat =
      { s with done := false, busy := true, curOp := some i, lag := 0, accepted := s.accepted + 1 }

/-! ### The six commands

Each completion sets the whole next state, so each of these is its command's frame too. `lag` is the model's own field (log
entry 2): with no command in flight it is 0. -/

/-- R165, AES_ENC: DOUT takes `encrypt_block(DIN, KEY)`, BUSY, DONE and CUR_OP follow R54, every other register keeps its
value, in every state; the corner values and the worked example; repeating the command rewrites the same DOUT. -/
def Obligations.AesEncCompletes : Prop :=
  encode .aesEnc = 0x00000001 ∧
  (∀ s : State, exec .aesEnc s =
    .next { s with dout := encryptBlock s.din s.key, busy := false, done := true, curOp := none, lag := 0 }) ∧
  encryptBlock zeroBlock zeroBlock = 0x66e94bd4ef8a2c3b884cfa59ca342b2e ∧
  encryptBlock 0xffffffffffffffffffffffffffffffff 0xffffffffffffffffffffffffffffffff =
    0xbcbf217cb280cf30b2517052193ab979 ∧
  encryptBlock 0x3243f6a8885a308d313198a2e0370734 0x2b7e151628aed2a6abf7158809cf4f3c =
    0x3925841d02dc09fbdc118597196a0b32 ∧
  (∀ s t u : State, exec .aesEnc s = .next t → exec .aesEnc t = .next u → u.dout = t.dout)

/-- R205, GMUL: DOUT takes `gmul(DIN, HKEY)`, every other register keeps its value, in every state; the corner cases and the
worked example. -/
def Obligations.GmulCompletes : Prop :=
  encode .gmul = 0x00000002 ∧
  (∀ s : State, exec .gmul s =
    .next { s with dout := gmul s.din s.hkey, busy := false, done := true, curOp := none, lag := 0 }) ∧
  (∀ x y : Stream16, x = 0 ∨ y = 0 → gmul x y = 0) ∧
  (∀ y : Stream16, gmul 0x80000000000000000000000000000000 y = y) ∧
  gmul 0x00000000000000000000000000000001 0x00000000000000000000000000000001 = 0xe6080000000000000000000000000003 ∧
  gmul 0xffffffffffffffffffffffffffffffff 0xffffffffffffffffffffffffffffffff = 0xf402aaaaaaaaaaaaaaaaaaaaaaaaaaaa ∧
  gmul 0x4f4f95668c83dfb6401762bb2d01a262 0x25629347589242761d31f826ba4b757b = 0x3d040f6603b2e4b419373b52eda5c154

/-- R206, GHASH_STEP: GHY takes `gmul(stream_xor(GHY, DIN), HKEY)`, the old GHY being read; every other register keeps its
value, in every state; GHY = DIN or HKEY = 0 gives 0; both steps of the worked example. -/
def Obligations.GhashStepCompletes : Prop :=
  encode .ghashStep = 0x00000003 ∧
  (∀ s : State, exec .ghashStep s =
    .next { s with ghy := gmul (streamXor s.ghy s.din) s.hkey, busy := false, done := true, curOp := none, lag := 0 }) ∧
  (∀ y x h : Stream16, y = x ∨ h = 0 → gmul (streamXor y x) h = 0) ∧
  gmul (streamXor 0 0x4f4f95668c83dfb6401762bb2d01a262) 0x25629347589242761d31f826ba4b757b =
    0x3d040f6603b2e4b419373b52eda5c154 ∧
  gmul (streamXor 0x3d040f6603b2e4b419373b52eda5c154 0xd1a24ddd2721d006bbe45f20d3c9f362)
    0x25629347589242761d31f826ba4b757b = 0xbd9b3997046731fb96251b91f9c99d7a

/-- R232, GCTR: DOUT takes `DIN XOR encrypt_block(CTR, KEY)` with the old CTR, and CTR takes `inc32(CTR)`, both at once;
every other register keeps its value, in every state. DIN = 0 gives the keystream block; the first n bytes of DOUT depend on
the first n of DIN only; CTR's counter word wraps and its other bytes stay; the worked example. -/
def Obligations.GctrCompletes : Prop :=
  encode .gctr = 0x00000004 ∧
  (∀ s : State, exec .gctr s =
    .next { s with
      dout := streamXor s.din (encryptBlock s.ctr s.key), ctr := inc32 s.ctr, busy := false, done := true,
      curOp := none, lag := 0 }) ∧
  (∀ key icb : Stream16, gctr key icb zeroBlock = encryptBlock icb key) ∧
  (∀ (key icb p q : Stream16) (n : Nat), n ≤ 16 → (∀ i < n, byteAt p i = byteAt q i) →
    ∀ i < n, byteAt (gctr key icb p) i = byteAt (gctr key icb q) i) ∧
  (∀ n : BitVec 96, inc32 (n ++ 0xffffffff#32) = n ++ 0x00000000#32) ∧
  gctr 0x31313131313131313131313131313131 0x31313131313131313131313100000002 0x7465737468656c6c6f30303030303030 =
    0x2929d2bb1ae94804402b8e776e0d3356 ∧
  inc32 0x31313131313131313131313100000002 = 0x31313131313131313131313100000003

/-- R233, INC32: CTR takes `inc32(CTR)`, every other register keeps its value, in every state; the counter words of the
corner cases; bytes 0 to 11 never change; 2^32 increments return CTR to its start value; the worked example. -/
def Obligations.Inc32Completes : Prop :=
  encode .inc32 = 0x00000005 ∧
  (∀ s : State, exec .inc32 s =
    .next { s with ctr := inc32 s.ctr, busy := false, done := true, curOp := none, lag := 0 }) ∧
  (∀ n : BitVec 96, inc32 (n ++ 0xffffffff#32) = n ++ 0x00000000#32 ∧ inc32 (n ++ 0xfffffffe#32) = n ++ 0xffffffff#32 ∧
    inc32 (n ++ 0x00ffffff#32) = n ++ 0x01000000#32 ∧ inc32 (n ++ 0x7fffffff#32) = n ++ 0x80000000#32) ∧
  (∀ (cb : Stream16) (i : Nat), i < 12 → byteAt (inc32 cb) i = byteAt cb i) ∧
  (∀ cb : Stream16, inc32^[2 ^ 32] cb = cb) ∧
  inc32 0xababababababababababababffffffff = 0xabababababababababababab00000000

/-- R257, AES_GCM_ENC: DOUT takes C and TAG takes T of the rule's own pseudocode at once, from the registers held before;
every other register (HKEY, GHY, CTR among them) keeps its value, in every state; AAD = 0 gives a first GHASH step of 0; the
worked example. -/
def Obligations.AesGcmEncCompletes : Prop :=
  encode .aesGcmEnc = 0x00000006 ∧
  (∀ s : State, ∀ h j0 c y t : Stream16,
    h = encryptBlock zeroBlock s.key →
    j0 = s.iv ++ 0x00000001#32 →
    c = streamXor s.din (encryptBlock (inc32 j0) s.key) →
    y = ghash h [s.aad, c, 0x00000000000000800000000000000080] →
    t = streamXor y (encryptBlock j0 s.key) →
    exec .aesGcmEnc s =
      .next { s with dout := c, tag := t, busy := false, done := true, curOp := none, lag := 0 }) ∧
  (∀ h : Stream16, ghash h [zeroBlock] = 0) ∧
  exec .aesGcmEnc State.reset =
    .next { State.reset with
      dout := 0x0388dace60b6a392f328c2b971b2fe78, tag := 0xd24e503a1bb037071c71b35d987b8657, done := true }

/-- R32 and R54: what a completion leaves: every word of the window reads as before except STATUS and the words of the
registers that R102's row of the command names; CTRL's bits, ERR and ERRCODE are unchanged, and so are the events still to
come and the transcript. The window is all the memory this engine has (R81). -/
def Obligations.CompletionFrame : Prop :=
  ∀ (i : Instr) (s t : State), exec i s = .next t →
    (∀ off : Offset, selectReg off ≠ .status → (∀ r k, selectReg off = .data r k → commandWrites i r = false) →
      t.busRead off = s.busRead off) ∧
    (t.ieDone = s.ieDone ∧ t.ieErr = s.ieErr ∧ t.err = s.err ∧ t.errCode = s.errCode) ∧
    (t.pending = s.pending ∧ t.transcript = s.transcript ∧ t.accepted = s.accepted ∧ t.resets = s.resets ∧ t.run = s.run)

/-- R17 and R56: two states that agree on a command's operand registers get the same value in every register the command
writes, whatever else they hold. -/
def Obligations.ResultsDependOnOperandsOnly : Prop :=
  ∀ (i : Instr) (s t s' t' : State), s.AgreeOnOperands i t → exec i s = .next s' → exec i t = .next t' →
    ∀ (r : DataReg) (k : Nat), commandWrites i r = true → s'.dataWord r k = t'.dataWord r k

/-! ### The command protocol over steps -/

/-- R58 with R39's bound on ERRCODE: the invariants survive every step. -/
def Obligations.StepKeepsProtocolInvariants : Prop :=
  ∀ s t : State,
    ((s.busy = true → s.done = false) ∧ (s.err = false ↔ s.errCode = 0) ∧ (s.busy = true ↔ s.curOp ≠ none) ∧
      s.errCode.toNat ≤ 3) →
    step s = .next t →
    ((t.busy = true → t.done = false) ∧ (t.err = false ↔ t.errCode = 0) ∧ (t.busy = true ↔ t.curOp ≠ none) ∧
      t.errCode.toNat ≤ 3)

/-- R53 and R55 over a whole run: from a state with a command in flight, through any number of steps with no reset and no
later acceptance, while that command is still in flight every data register (operands and results) reads what it read
before, and CUR_OP is the same. -/
def Obligations.RegistersStableWhileInFlight : Prop :=
  ∀ (n : Nat) (s t : State), s.legal = true → s.busy = true → core.run n s = .next t →
    t.accepted = s.accepted → t.resets = s.resets → t.busy = true →
    s.SameData t ∧ t.curOp = s.curOp

/-- R17, R53, R54 over a whole run: once the command in flight has completed, with no reset and no later acceptance, DOUT
and TAG hold what the command's rule gives for the operand registers as they stood when it was in flight, whatever the host
did in between. -/
def Obligations.OutputsAreOfAcceptedOperands : Prop :=
  ∀ (n : Nat) (s t u : State) (i : Instr), s.legal = true → s.curOp = some i → exec i s = .next u →
    core.run n s = .next t → t.accepted = s.accepted → t.resets = s.resets → t.busy = false →
    t.dout = u.dout ∧ t.tag = u.tag

/-- R37: BUSY is set by acceptance and cleared by completion, and by nothing else except reset; it is 1 exactly when CUR_OP
is not none. -/
def Obligations.BusySetByAcceptanceClearedByCompletion : Prop :=
  ∀ s t : State, step s = .next t →
    (s.busy = false → t.busy = true →
      ∃ i rest, s.HostTurn (.txn (.write 0x0C 4 (encode i))) rest) ∧
    (∀ i rest, s.busy = false → s.HostTurn (.txn (.write 0x0C 4 (encode i))) rest → t.busy = true) ∧
    (s.busy = true → t.busy = false →
      (∃ i, s.EngineTurn i) ∨ ∃ u rest, s.HostTurn (.reset u) rest) ∧
    (∀ i, s.EngineTurn i → t.busy = false) ∧
    (t.busy = true ↔ t.curOp ≠ none)

/-- R38: DONE is set by completion and by nothing else; it is cleared by a W1C write, by reset and by every write to CMD
while BUSY = 0, and by nothing else (a read leaves it). -/
def Obligations.DoneSetByCompletionOnly : Prop :=
  ∀ s t : State, step s = .next t →
    (s.done = false → t.done = true → ∃ i, s.EngineTurn i) ∧
    (∀ i, s.EngineTurn i → t.done = true) ∧
    (s.done = true → t.done = false →
      (∃ v rest, s.HostTurn (.txn (.write 0x08 4 v)) rest ∧ v.getLsbD 1 = true) ∨
      (∃ u rest, s.HostTurn (.reset u) rest) ∨
      (s.busy = false ∧ ∃ v rest, s.HostTurn (.txn (.write 0x0C 4 v)) rest)) ∧
    (∀ v rest, s.HostTurn (.txn (.write 0x08 4 v)) rest → v.getLsbD 1 = true → t.done = false) ∧
    (∀ u rest, s.HostTurn (.reset u) rest → t.done = false) ∧
    (∀ v rest, s.busy = false → s.HostTurn (.txn (.write 0x0C 4 v)) rest → t.done = false)

/-- R39: first-error capture: an error is recorded only if ERR is 0; ERR and ERRCODE are cleared together, only by a write
of 1 to STATUS bit 2 or by reset; the codes are 1, 2 and 3; completion and acceptance leave both unchanged. -/
def Obligations.FirstErrorIsKept : Prop :=
  (∀ (s : State) (e : CmdError), s.raiseCmdError e =
    if s.err = false then { s with err := true, errCode := e.code } else s) ∧
  (∀ e : CmdError, e.code = 1 ∨ e.code = 2 ∨ e.code = 3) ∧
  (∀ s t : State, step s = .next t → s.err = true →
    (t.err = true ∧ t.errCode = s.errCode) ∨
    (t.err = false ∧ t.errCode = 0 ∧
      ((∃ v rest, s.HostTurn (.txn (.write 0x08 4 v)) rest ∧ v.getLsbD 2 = true) ∨
        ∃ u rest, s.HostTurn (.reset u) rest))) ∧
  (∀ (s t : State) (i : Instr), step s = .next t → s.EngineTurn i → t.err = s.err ∧ t.errCode = s.errCode) ∧
  (∀ (s : State) (i : Instr), (s.accept i).err = s.err ∧ (s.accept i).errCode = s.errCode)

/-- R49, R75: no host transaction changes DOUT or TAG; a step that changes one is a completion or a reset. -/
def Obligations.OutputsChangeByCompletionOnly : Prop :=
  ∀ s t : State, step s = .next t → (t.dout ≠ s.dout ∨ t.tag ≠ s.tag) →
    (∃ i, s.EngineTurn i) ∨ ∃ u rest, s.HostTurn (.reset u) rest

/-- R32, R53: KEY, DIN, IV, AAD and HKEY are written by no command and by no host write while BUSY = 1: a step that changes
one is a reset, or an aligned word write, while idle, to that register's own offsets. -/
def Obligations.OperandsChangeByIdleHostWriteOnly : Prop :=
  ∀ s t : State, step s = .next t → (∀ u rest, ¬ s.HostTurn (.reset u) rest) →
    (t.key ≠ s.key → s.busy = false ∧
      ∃ off v rest, s.HostTurn (.txn (.write off 4 v)) rest ∧ off.toNat % 4 = 0 ∧ off.toNat / 16 = 1) ∧
    (t.din ≠ s.din → s.busy = false ∧
      ∃ off v rest, s.HostTurn (.txn (.write off 4 v)) rest ∧ off.toNat % 4 = 0 ∧ off.toNat / 16 = 2) ∧
    (t.iv ≠ s.iv → s.busy = false ∧
      ∃ off v rest, s.HostTurn (.txn (.write off 4 v)) rest ∧ off.toNat % 4 = 0 ∧ off.toNat / 16 = 3 ∧ off ≠ 0x3C) ∧
    (t.aad ≠ s.aad → s.busy = false ∧
      ∃ off v rest, s.HostTurn (.txn (.write off 4 v)) rest ∧ off.toNat % 4 = 0 ∧ off.toNat / 16 = 4) ∧
    (t.hkey ≠ s.hkey → s.busy = false ∧
      ∃ off v rest, s.HostTurn (.txn (.write off 4 v)) rest ∧ off.toNat % 4 = 0 ∧ off.toNat / 16 = 5)

/-- R340, R345: every run ends: a host program without a WAIT loop, whatever it does and whatever the latencies, is over
(all transactions taken, BUSY = 0) after at most twice its length plus one steps. R345 says nothing of a run with a reset in
it; that such a run ends by the same test is the model's DESIGN CHOICE (log entry 14). -/
def Obligations.EveryRunEnds : Prop :=
  ∀ s : State, s.legal = true → hasWait s.pending = false →
    ∃ t, core.run (2 * s.pending.length + 1) s = .next t ∧ t.RunOver

/-- R340: "Every `WAIT` loop ends after a finite number of iterations": entered while a command is in flight, the loop ends,
its last transaction being a read of STATUS that shows DONE or ERR. The bound uses the model's own `lag` (log entry 2). -/
def Obligations.WaitLoopEnds : Prop :=
  ∀ (s : State) (rest : List HostEvent), s.legal = true → s.busy = true → s.pending = .wait :: rest →
    ∃ n t v, n ≤ s.lag + 2 ∧ core.run n s = .next t ∧ t.pending = rest ∧
      t.transcript.head? = some ⟨.read 0x08 4, .rdata v⟩ ∧ v &&& 0x6 ≠ 0

/-! ### Bus transactions -/

/-- R281, R76: a transaction of another size than 4, or at an offset not divisible by 4, gets BusError and changes no engine
state, STATUS, ERRCODE and irq among it; a word access never gets BusError. -/
def Obligations.BusErrorChangesNothing : Prop :=
  (∀ (s : State) (off : Offset) (size : Nat) (rest : List HostEvent), (size ≠ 4 ∨ off.toNat % 4 ≠ 0) →
    s.HostTurn (.txn (.read off size)) rest →
    step s = .next ((s.taken rest).recorded (.read off size) .busError)) ∧
  (∀ (s : State) (off : Offset) (size : Nat) (v : Word) (rest : List HostEvent), (size ≠ 4 ∨ off.toNat % 4 ≠ 0) →
    s.HostTurn (.txn (.write off size v)) rest →
    step s = .next ((s.taken rest).recorded (.write off size v) .busError)) ∧
  (∀ (s : State) (off : Offset) (v : Word), off.toNat % 4 = 0 →
    s.response (.read off 4) ≠ .busError ∧ s.response (.write off 4 v) = .ok)

/-- R77: no host read changes any state, and two reads of one offset with nothing between return the same value. -/
def Obligations.ReadsHaveNoSideEffect : Prop :=
  ∀ (s : State) (off : Offset) (rest : List HostEvent), off.toNat % 4 = 0 → s.HostTurn (.txn (.read off 4)) rest →
    step s = .next ((s.taken rest).recorded (.read off 4) (.rdata (s.busRead off))) ∧
    ∀ off' : Offset, ((s.taken rest).recorded (.read off 4) (.rdata (s.busRead off))).busRead off' = s.busRead off'

/-- R71: the register map, read: ID, CTRL, STATUS and CMD at their offsets, word `k` of each data register at its base plus
4k, with every base written out from the table. -/
def Obligations.RegisterMapReads : Prop :=
  ∀ s : State,
    (s.busRead 0x00 = 0x4D434741 ∧ s.busRead 0x04 = s.ctrlWord ∧ s.busRead 0x08 = s.statusWord ∧ s.busRead 0x0C = 0) ∧
    (∀ k < 4, s.busRead (0x10 + BitVec.ofNat 8 (4 * k)) = packWord s.key k ∧
      s.busRead (0x20 + BitVec.ofNat 8 (4 * k)) = packWord s.din k ∧
      s.busRead (0x40 + BitVec.ofNat 8 (4 * k)) = packWord s.aad k ∧
      s.busRead (0x50 + BitVec.ofNat 8 (4 * k)) = packWord s.hkey k ∧
      s.busRead (0x60 + BitVec.ofNat 8 (4 * k)) = packWord s.ghy k ∧
      s.busRead (0x70 + BitVec.ofNat 8 (4 * k)) = packWord s.ctr k ∧
      s.busRead (0x80 + BitVec.ofNat 8 (4 * k)) = packWord s.dout k ∧
      s.busRead (0x90 + BitVec.ofNat 8 (4 * k)) = packWord s.tag k) ∧
    (∀ k < 3, s.busRead (0x30 + BitVec.ofNat 8 (4 * k)) = packWord s.iv k)

/-- R72: word `k` of a stream is `s[4k] | s[4k+1] << 8 | s[4k+2] << 16 | s[4k+3] << 24`; a write of `v` to word `k` sets
byte `4k+j` to `v[8j+7:8j]` and leaves the register's other bytes; the worked example. -/
def Obligations.WordPackingIsLittleEndian : Prop :=
  (∀ (s : Stream16) (k : Nat), k < 4 → packWord s k =
    (byteAt s (4 * k)).zeroExtend 32 ||| ((byteAt s (4 * k + 1)).zeroExtend 32 <<< 8) |||
      ((byteAt s (4 * k + 2)).zeroExtend 32 <<< 16) ||| ((byteAt s (4 * k + 3)).zeroExtend 32 <<< 24)) ∧
  (∀ (s : Stream12) (k : Nat), k < 3 → packWord s k =
    (byteAt s (4 * k)).zeroExtend 32 ||| ((byteAt s (4 * k + 1)).zeroExtend 32 <<< 8) |||
      ((byteAt s (4 * k + 2)).zeroExtend 32 <<< 16) ||| ((byteAt s (4 * k + 3)).zeroExtend 32 <<< 24)) ∧
  (∀ (s : Stream16) (k : Nat) (v : Word), k < 4 →
    (∀ j < 4, byteAt (unpackWord16 s k v) (4 * k + j) = v.extractLsb' (8 * j) 8) ∧
    (∀ i < 16, i / 4 ≠ k → byteAt (unpackWord16 s k v) i = byteAt s i)) ∧
  (∀ (s : Stream12) (k : Nat) (v : Word), k < 3 →
    (∀ j < 4, byteAt (unpackWord12 s k v) (4 * k + j) = v.extractLsb' (8 * j) 8) ∧
    (∀ i < 12, i / 4 ≠ k → byteAt (unpackWord12 s k v) i = byteAt s i)) ∧
  (packWord (0x2b7e151628aed2a6abf7158809cf4f3c : Stream16) 0 = 0x16157e2b ∧
    packWord (0x2b7e151628aed2a6abf7158809cf4f3c : Stream16) 1 = 0xa6d2ae28 ∧
    packWord (0x2b7e151628aed2a6abf7158809cf4f3c : Stream16) 2 = 0x8815f7ab ∧
    packWord (0x2b7e151628aed2a6abf7158809cf4f3c : Stream16) 3 = 0x3c4fcf09)

/-- R74: a reserved offset reads 0 and discards writes with no error and no change, even while BUSY = 1; the reserved bits
of CTRL and STATUS do the same within their registers. -/
def Obligations.ReservedSpaceReadsZeroIgnoresWrites : Prop :=
  (∀ (s : State) (off : Offset) (v : Word) (rest : List HostEvent), off.toNat % 4 = 0 → (off = 0x3C ∨ 0xA0 ≤ off.toNat) →
    s.busRead off = 0 ∧
    (s.HostTurn (.txn (.write off 4 v)) rest →
      step s = .next ((s.taken rest).recorded (.write off 4 v) .ok))) ∧
  (∀ (s : State) (v : Word),
    s.ctrlWord.extractLsb' 2 30 = 0 ∧ s.statusWord.extractLsb' 3 5 = 0 ∧ s.statusWord.extractLsb' 12 20 = 0 ∧
    s.writeCtrl v = s.writeCtrl (v &&& 0x3) ∧ s.writeStatus v = s.writeStatus (v &&& 0x6))

/-- R75: a write to ID, DOUT or TAG is discarded with no error and no change, even while BUSY = 1; a read of CMD returns
0. -/
def Obligations.ReadOnlyRegistersIgnoreWrites : Prop :=
  ∀ s : State, s.busRead 0x0C = 0 ∧
    ∀ (off : Offset) (v : Word) (rest : List HostEvent), off.toNat % 4 = 0 →
      (off = 0x00 ∨ 0x80 ≤ off.toNat ∧ off.toNat < 0xA0) → s.HostTurn (.txn (.write off 4 v)) rest →
      step s = .next ((s.taken rest).recorded (.write off 4 v) .ok)

/-- R72, R78 for an idle engine: a word written to an operand register reads back, every other word of the window reads as
before, and CUR_OP, `lag`'s host side and the counters are as after any transaction. -/
def Obligations.IdleOperandWriteStoresOneWord : Prop :=
  ∀ (s : State) (off : Offset) (v : Word) (rest : List HostEvent), s.busy = false → off.toNat % 4 = 0 →
    (0x10 ≤ off.toNat ∧ off.toNat < 0x3C ∨ 0x40 ≤ off.toNat ∧ off.toNat < 0x80) →
    s.HostTurn (.txn (.write off 4 v)) rest →
    ∃ t, step s = .next t ∧ t.busRead off = v ∧
      (∀ off' : Offset, off'.toNat / 4 ≠ off.toNat / 4 → t.busRead off' = s.busRead off') ∧
      t.curOp = s.curOp ∧ t.pending = rest ∧ t.accepted = s.accepted ∧ t.resets = s.resets ∧ t.run = s.run ∧
      t.transcript = ⟨.write off 4 v, .ok⟩ :: s.transcript

/-- R53: while BUSY = 1 a write to any offset of KEY, DIN, IV, AAD, HKEY, GHY or CTR leaves every register unchanged and
records WRITE_WHILE_BUSY (code 2, the first error kept); writes to CTRL and STATUS are performed all the same. -/
def Obligations.BusyOperandWriteIsDropped : Prop :=
  ∀ (s : State) (off : Offset) (v : Word) (rest : List HostEvent), s.busy = true → off.toNat % 4 = 0 →
    s.HostTurn (.txn (.write off 4 v)) rest →
    ((0x10 ≤ off.toNat ∧ off.toNat < 0x3C ∨ 0x40 ≤ off.toNat ∧ off.toNat < 0x80) →
      step s = .next (({ s.taken rest with
        err := true, errCode := if s.err then s.errCode else 2 }).recorded (.write off 4 v) .ok)) ∧
    (off = 0x04 → step s = .next (((s.taken rest).writeCtrl v).recorded (.write off 4 v) .ok)) ∧
    (off = 0x08 → step s = .next (((s.taken rest).writeStatus v).recorded (.write off 4 v) .ok))

/-- R34: CTRL: a write sets IE_DONE and IE_ERR to bits 0 and 1 at any time, busy or not, and nothing else; a read gives
`zext_32` of the two bits; IE_DONE enables `irq` for DONE and IE_ERR for ERR; both are 0 after reset. -/
def Obligations.CtrlHoldsTwoEnableBits : Prop :=
  (∀ (s : State) (v : Word) (rest : List HostEvent), s.HostTurn (.txn (.write 0x04 4 v)) rest →
    step s = .next (({ s.taken rest with ieDone := v.getLsbD 0, ieErr := v.getLsbD 1 }).recorded (.write 0x04 4 v) .ok)) ∧
  (∀ (s : State) (v : Word), (s.writeCtrl v).ctrlWord = (v.extractLsb' 0 2).zeroExtend 32) ∧
  (∀ s : State, (s.ieDone = true → s.done = true → s.irq = true) ∧ (s.ieErr = true → s.err = true → s.irq = true)) ∧
  State.reset.ctrlWord = 0

/-- R36: a write to STATUS clears DONE if bit 1 of it is 1, clears ERR and ERRCODE if bit 2 is 1, and does nothing else, at
any time; in particular BUSY keeps its value, and bits written 0 leave their fields. -/
def Obligations.StatusIsWriteOneToClear : Prop :=
  ∀ (s : State) (v : Word) (rest : List HostEvent), s.HostTurn (.txn (.write 0x08 4 v)) rest →
    step s = .next (({ s.taken rest with
      done := s.done && !v.getLsbD 1
      err := s.err && !v.getLsbD 2
      errCode := if v.getLsbD 2 then 0 else s.errCode }).recorded (.write 0x08 4 v) .ok)

/-- R35: a read of STATUS, bit by bit. -/
def Obligations.StatusWordLayout : Prop :=
  ∀ s : State,
    s.statusWord.getLsbD 0 = s.busy ∧ s.statusWord.getLsbD 1 = s.done ∧ s.statusWord.getLsbD 2 = s.err ∧
    s.statusWord.extractLsb' 3 5 = 0 ∧ s.statusWord.extractLsb' 8 4 = s.errCode ∧ s.statusWord.extractLsb' 12 20 = 0

/-- R286 and R289: irq from the enables, DONE and ERR; ACK, or clearing the enables, drops it in the same step. -/
def Obligations.InterruptFollowsStatusAndEnables : Prop :=
  (∀ s : State, s.irq = true ↔ (s.ieDone = true ∧ s.done = true) ∨ (s.ieErr = true ∧ s.err = true)) ∧
  (∀ (s : State) (rest : List HostEvent), s.HostTurn hostAck rest → ∃ t, step s = .next t ∧ t.irq = false) ∧
  (∀ (s : State) (rest : List HostEvent), s.HostTurn (.txn (.write 0x04 4 0)) rest → ∃ t, step s = .next t ∧ t.irq = false)

/-- R59: the reset values of the table, every register read over the bus, irq 0; and the invariants of R58 hold there. -/
def Obligations.ResetLeavesTheTableOfValues : Prop :=
  State.reset.busRead 0x00 = 0x4D434741 ∧
  (∀ off : Offset, off.toNat % 4 = 0 → off ≠ 0x00 → State.reset.busRead off = 0) ∧
  (State.reset.busy = false ∧ State.reset.done = false ∧ State.reset.err = false ∧ State.reset.errCode = 0) ∧
  (State.reset.ieDone = false ∧ State.reset.ieErr = false ∧ State.reset.curOp = none ∧ State.reset.irq = false) ∧
  State.reset.legal = true

/-- R320: a reset event gives every register its reset value, discards a command in flight with none of its results written
and drops irq; a transaction under way takes effect before it or never (the response of a transaction that took effect is
all that is left of it; which of the two is a free value, log entry 3). -/
def Obligations.ResetEventDiscardsEverything : Prop :=
  (∀ (s : State) (rest : List HostEvent), s.HostTurn (.reset none) rest →
    step s = .next { State.reset with
      pending := rest, transcript := s.transcript, accepted := s.accepted, resets := s.resets + 1,
      run := s.run }) ∧
  (∀ (s : State) (x : Txn) (rest : List HostEvent), s.HostTurn (.reset (some x)) rest →
    ∃ t, step s = .next t ∧ t.irq = false ∧
      (t = { State.reset with
          pending := rest, transcript := s.transcript, accepted := s.accepted, resets := s.resets + 1,
          run := s.run } ∨
        ∃ n, t = { State.reset with
          pending := rest, transcript := ⟨x, s.response x⟩ :: s.transcript, accepted := n, resets := s.resets + 1,
          run := s.run }))

/-- R70, R9: an address in the window at BASE (a multiple of 256) gives its distance from BASE as the offset; an address
outside gives none. BASE is a free value: this holds whatever it is. -/
def Obligations.WindowOffsetIsAddressMinusBase : Prop :=
  Config.base % 256 = 0 ∧
  (∀ off : Offset, windowOffset (Config.base + off.toNat) = some off) ∧
  (∀ addr : Nat, addr < Config.base ∨ Config.base + 256 ≤ addr → windowOffset addr = none)

/-! ### Representation -/

/-- R130, R131, R132: the layout of the AES state, both ways, with the two examples, and that the two conversions are mutual
inverses. -/
def Obligations.BlockAndStreamAreInverse : Prop :=
  (∀ (s : Stream16) (r c : Fin 4), entry (toBlock s) r c = byteAt s (4 * c.val + r.val)) ∧
  (∀ (b : Block) (i : Fin 16), byteAt (toStream b) i.val = entry b (Fin.ofNat 4 (i.val % 4)) (Fin.ofNat 4 (i.val / 4))) ∧
  (∀ b : Block, toBlock (toStream b) = b) ∧ (∀ s : Stream16, toStream (toBlock s) = s) ∧
  toBlock 0x3243f6a8885a308d313198a2e0370734 =
    #v[#v[0x32, 0x88, 0x31, 0xe0], #v[0x43, 0x5a, 0x31, 0x37], #v[0xf6, 0x30, 0x98, 0x07], #v[0xa8, 0x8d, 0xa2, 0x34]] ∧
  toStream #v[#v[0x39, 0x02, 0xdc, 0x19], #v[0x25, 0xdc, 0x11, 0x6a], #v[0x84, 0x09, 0x85, 0x0b], #v[0x1d, 0xfb, 0x97, 0x32]] =
    0x3925841d02dc09fbdc118597196a0b32

/-- R133: bit 0 is the byte's most significant bit, the byte is the sum of its bits, and the two are mutual inverses. -/
def Obligations.ByteAndBitsAreInverse : Prop :=
  (∀ (b : Byte) (j : Fin 8), (byteToBits b)[j] = b.getLsbD (7 - j.val)) ∧
  (∀ t : Vector Bool 8, (bitsToByte t).toNat =
    t[0].toNat * 128 + t[1].toNat * 64 + t[2].toNat * 32 + t[3].toNat * 16 + t[4].toNat * 8 + t[5].toNat * 4 +
      t[6].toNat * 2 + t[7].toNat) ∧
  (∀ b : Byte, bitsToByte (byteToBits b) = b) ∧ (∀ t : Vector Bool 8, byteToBits (bitsToByte t) = t)

/-- R134, R12: `v(8i + j) = s[i][7 - j]`, byte `i` of a BitVector's stream is built by R133 from its bits `8i` to `8i+7`,
the two are mutual inverses, and the two examples. -/
def Obligations.StreamAndBitsAreInverse : Prop :=
  (∀ (s : Stream16) (i j : Nat), i < 16 → j < 8 → bitAt (streamToBits s) (8 * i + j) = (byteAt s i).getLsbD (7 - j)) ∧
  (∀ (v : BitVector) (i : Nat), i < 16 →
    byteAt (bitsToStream v) i = bitsToByte (Vector.ofFn fun j : Fin 8 => bitAt v (8 * i + j.val))) ∧
  (∀ s : Stream16, bitsToStream (streamToBits s) = s) ∧ (∀ v : BitVector, streamToBits (bitsToStream v) = v) ∧
  (∀ k < 128, bitAt (streamToBits 0x80000000000000000000000000000000) k = decide (k = 0)) ∧
  (∀ k < 128, bitAt (streamToBits 0x00000000000000000000000000000001) k = decide (k = 127))

/-- R135, R136: exclusive-or of streams and of four-byte words is byte-wise, and that of BitVectors is bitwise and agrees;
the right shift on bits and on bytes, and its two examples. -/
def Obligations.XorAndShiftOnBitsAndBytes : Prop :=
  (∀ (a b : Stream16) (i : Nat), i < 16 → byteAt (streamXor a b) i = byteAt a i ^^^ byteAt b i) ∧
  (∀ (a b : KeyWord) (i : Nat), i < 4 → byteAt (wordXor a b) i = byteAt a i ^^^ byteAt b i) ∧
  (∀ (a b : Stream16) (k : Nat), k < 128 → bitAt (streamToBits (streamXor a b)) k =
    (bitAt (streamToBits a) k ^^ bitAt (streamToBits b) k)) ∧
  (∀ v : BitVector, bitAt (bitwiseRightShift v) 0 = false ∧
    ∀ k, 1 ≤ k → k ≤ 127 → bitAt (bitwiseRightShift v) k = bitAt v (k - 1)) ∧
  (∀ s : Stream16, byteAt (bitsToStream (bitwiseRightShift (streamToBits s))) 0 = byteAt s 0 >>> 1 ∧
    ∀ i, 1 ≤ i → i ≤ 15 → byteAt (bitsToStream (bitwiseRightShift (streamToBits s))) i =
      (byteAt s i >>> 1) ||| ((byteAt s (i - 1) &&& 1) <<< 7)) ∧
  bitwiseRightShift 0x80000000000000000000000000000000 = 0x40000000000000000000000000000000 ∧
  bitwiseRightShift 0x00000000000000000000000000000100 = 0x00000000000000000000000000000080

/-! ### AES -/

/-- R151: the table of R150 is the FIPS-197 construction: for every `x` there is `b = inv(x)` (0 for 0) with each bit of
`S(x)` as the rule gives it. -/
def Obligations.SboxIsInverseThenAffine : Prop :=
  ∀ x : Byte, ∃ b : Byte, (x = 0 → b = 0) ∧ (x ≠ 0 → gf8Mul x b = 1) ∧
    ∀ i : Fin 8, (sbox x).getLsbD i.val =
      (b.getLsbD i.val ^^ b.getLsbD ((i.val + 4) % 8) ^^ b.getLsbD ((i.val + 5) % 8) ^^ b.getLsbD ((i.val + 6) % 8) ^^
        b.getLsbD ((i.val + 7) % 8) ^^ (0x63 : Byte).getLsbD i.val)

/-- R157: the 44 words: the first four are the key, each later one is the word 4 back XOR `temp`, which goes through RotWord,
SubWord and Rcon only where `i mod 4 = 0`; the example's `w[4]` and `w[43]`. -/
def Obligations.KeyScheduleFollowsFips : Prop :=
  (∀ key : Stream16, (expand key).length = 44 ∧
    (∀ i < 4, scheduleWord (expand key) i =
      byteAt key (4 * i) ++ byteAt key (4 * i + 1) ++ byteAt key (4 * i + 2) ++ byteAt key (4 * i + 3)) ∧
    (∀ i, 4 ≤ i → i ≤ 43 → scheduleWord (expand key) i =
      wordXor (scheduleWord (expand key) (i - 4))
        (if i % 4 = 0 then wordXor (subWord (rotWord (scheduleWord (expand key) (i - 1)))) (rcon (i / 4))
          else scheduleWord (expand key) (i - 1)))) ∧
  scheduleWord (expand 0x2b7e151628aed2a6abf7158809cf4f3c) 4 = 0xa0fafe17 ∧
  scheduleWord (expand 0x2b7e151628aed2a6abf7158809cf4f3c) 43 = 0xb6630ca6

/-- R153, R155, R156: the ten round constants, each the double of the one before and in the first byte of its word; RotWord
as a rotation of bytes toward index 0; SubWord byte by byte. -/
def Obligations.ScheduleHelpersActOnBytes : Prop :=
  ((List.range 10).map fun j => roundConstant (j + 1)) = [0x01, 0x02, 0x04, 0x08, 0x10, 0x20, 0x40, 0x80, 0x1b, 0x36] ∧
  (∀ j, 1 ≤ j → roundConstant (j + 1) = xtime (roundConstant j)) ∧
  (∀ j, byteAt (rcon j) 0 = roundConstant j ∧ byteAt (rcon j) 1 = 0 ∧ byteAt (rcon j) 2 = 0 ∧ byteAt (rcon j) 3 = 0) ∧
  (∀ (a : KeyWord) (i : Nat), i < 4 → byteAt (rotWord a) i = byteAt a ((i + 1) % 4)) ∧
  (∀ (a : KeyWord) (i : Nat), i < 4 → byteAt (subWord a) i = sbox (byteAt a i))

/-- R159: AddRoundKey entry by entry, and as the exclusive-or of the streams with round key `r` of R158. -/
def Obligations.AddRoundKeyIsStreamXor : Prop :=
  ∀ (w : List KeyWord) (r : Nat) (b : Block),
    (∀ row c : Fin 4, entry (addRoundKey w r b) row c = entry b row c ^^^ byteAt (scheduleWord w (4 * r + c.val)) row.val) ∧
    addRoundKey w r b = toBlock (streamXor (toStream b) (roundKey w r))

/-- R160, R161, R162: SubBytes and ShiftRows entry by entry, and the four lines of MixColumns with products of R152, which for
2 and 3 are `xtime`; the rule's example column. -/
def Obligations.RoundLayersEntryByEntry : Prop :=
  (∀ a : Byte, gf8Mul 2 a = xtime a ∧ gf8Mul 3 a = xtime a ^^^ a) ∧
  ∀ b : Block,
    (∀ r c : Fin 4, entry (subBytes b) r c = sbox (entry b r c)) ∧
    (∀ r c : Fin 4, entry (shiftRows b) r c = entry b r (Fin.ofNat 4 (c.val + r.val))) ∧
    (∀ c : Fin 4, ∀ a0 a1 a2 a3 : Byte,
      a0 = entry b 0 c → a1 = entry b 1 c → a2 = entry b 2 c → a3 = entry b 3 c →
      entry (mixColumns b) 0 c = gf8Mul 2 a0 ^^^ gf8Mul 3 a1 ^^^ a2 ^^^ a3 ∧
      entry (mixColumns b) 1 c = a0 ^^^ gf8Mul 2 a1 ^^^ gf8Mul 3 a2 ^^^ a3 ∧
      entry (mixColumns b) 2 c = a0 ^^^ a1 ^^^ gf8Mul 2 a2 ^^^ gf8Mul 3 a3 ∧
      entry (mixColumns b) 3 c = gf8Mul 3 a0 ^^^ a1 ^^^ a2 ^^^ gf8Mul 2 a3 ∧
      (a0 = 0xdb → a1 = 0x13 → a2 = 0x53 → a3 = 0x45 →
        entry (mixColumns b) 0 c = 0x8e ∧ entry (mixColumns b) 1 c = 0x4d ∧
        entry (mixColumns b) 2 c = 0xa1 ∧ entry (mixColumns b) 3 c = 0xbc))

/-- R163, R164: whatever sequence of blocks starts with round 0 and goes on by rounds 1 to 9, `encrypt_block` is round 10 of
its ninth, without MixColumns. -/
def Obligations.BlockTransformHasTenRounds : Prop :=
  ∀ (input key : Stream16) (b : Nat → Block),
    b 0 = addRoundKey (expand key) 0 (toBlock input) →
    (∀ r, 1 ≤ r → r ≤ 9 → b r = addRoundKey (expand key) r (mixColumns (shiftRows (subBytes (b (r - 1)))))) →
    encryptBlock input key = toStream (addRoundKey (expand key) 10 (shiftRows (subBytes (b 9))))

/-! ### GF(2^128), GHASH, counter, AES-GCM -/

/-- R201: `mulx` bit by bit: the shift of R136, and 0xE1 into byte 0 of the shifted value when bit 127 fell out; the three
examples. -/
def Obligations.MulxReducesIntoByteZero : Prop :=
  (∀ a : Stream16, bitAt (streamToBits a) 127 = false → mulx a = bitsToStream (bitwiseRightShift (streamToBits a))) ∧
  (∀ a : Stream16, bitAt (streamToBits a) 127 = true →
    byteAt (mulx a) 0 = byteAt (bitsToStream (bitwiseRightShift (streamToBits a))) 0 ^^^ 0xE1 ∧
    ∀ i, 1 ≤ i → i ≤ 15 → byteAt (mulx a) i = byteAt (bitsToStream (bitwiseRightShift (streamToBits a))) i) ∧
  mulx 0x00000000000000000000000000000001 = 0xe1000000000000000000000000000000 ∧
  mulx 0x80000000000000000000000000000000 = 0x40000000000000000000000000000000 ∧
  mulx 0xffffffffffffffffffffffffffffffff = 0x9effffffffffffffffffffffffffffff

/-- R203, R200: `gmul(x, y)` is the sum over the bits `i` of `x` that are set of `y` doubled `i` times; in particular the
element "x" times `a` is `mulx(a)`. -/
def Obligations.GmulIsSumOfDoublings : Prop :=
  (∀ x y : Stream16, gmul x y =
    (List.range 128).foldl (fun z i => if bitAt (streamToBits x) i then streamXor z (mulx^[i] y) else z) zeroBlock) ∧
  (∀ a : Stream16, gmul 0x40000000000000000000000000000000 a = mulx a)

/-- R207: `gmul` is commutative over GF(2^128). -/
def Obligations.GmulCommutative : Prop :=
  ∀ x y : Stream16, gmul x y = gmul y x

/-- R207: `gmul` distributes over `stream_xor` in each argument. -/
def Obligations.GmulDistributive : Prop :=
  (∀ x y1 y2 : Stream16, gmul x (streamXor y1 y2) = streamXor (gmul x y1) (gmul x y2)) ∧
  (∀ x1 x2 y : Stream16, gmul (streamXor x1 x2) y = streamXor (gmul x1 y) (gmul x2 y))

/-- R207: `gmul` is associative. -/
def Obligations.GmulAssociative : Prop :=
  ∀ x y z : Stream16, gmul (gmul x y) z = gmul x (gmul y z)

/-- R204, R206, R333: GHY zeroed and HKEY holding H, one GHASH_STEP for each block in order leaves `ghash(H, X_1 .. X_N)` in
GHY and H in HKEY, for every list of blocks. -/
def Obligations.GhashStepsComputeGhash : Prop :=
  ∀ (s : State) (h : Stream16) (xs : List Stream16), s.ghy = zeroBlock → s.hkey = h →
    ∃ t, ghashByCommands s xs = .next t ∧ t.hkey = h ∧
      t.ghy = xs.foldl (fun y x => gmul (streamXor y x) h) zeroBlock ∧ t.ghy = ghash h xs

/-- R230: `inc32`: the last four bytes as a 32-bit big-endian number go up by one modulo 2^32; the first twelve stay. -/
def Obligations.Inc32AddsOneToTheCounterWord : Prop :=
  ∀ cb : Stream16,
    (∀ i < 12, byteAt (inc32 cb) i = byteAt cb i) ∧
    (byteAt (inc32 cb) 12).toNat * 2 ^ 24 + (byteAt (inc32 cb) 13).toNat * 2 ^ 16 + (byteAt (inc32 cb) 14).toNat * 2 ^ 8 +
        (byteAt (inc32 cb) 15).toNat =
      ((byteAt cb 12).toNat * 2 ^ 24 + (byteAt cb 13).toNat * 2 ^ 16 + (byteAt cb 14).toNat * 2 ^ 8 +
        (byteAt cb 15).toNat + 1) % 2 ^ 32

/-- R231, R260: `gctr` is the plaintext XOR the encrypted counter block, and is its own inverse under one key and counter. -/
def Obligations.GctrIsItsOwnInverse : Prop :=
  ∀ key icb p : Stream16, gctr key icb p = streamXor p (encryptBlock icb key) ∧ gctr key icb (gctr key icb p) = p

/-- R251, R252, R253: J0, its increment and the length block, byte by byte. -/
def Obligations.CounterBlocksOfGcm : Prop :=
  (∀ iv : Stream12, (∀ i < 12, byteAt (initialCounter iv) i = byteAt iv i) ∧
    byteAt (initialCounter iv) 12 = 0 ∧ byteAt (initialCounter iv) 13 = 0 ∧ byteAt (initialCounter iv) 14 = 0 ∧
    byteAt (initialCounter iv) 15 = 1) ∧
  (∀ iv : Stream12, inc32 (initialCounter iv) = iv ++ 0x00000002#32 ∧ inc32 (initialCounter iv) ≠ initialCounter iv) ∧
  lengthBlock = 0x00000000000000800000000000000080

/-- R259: AES_GCM_ENC gives the DOUT and TAG that the units give in the order of program P4: AES_ENC of zero for H, INC32
and GCTR on J0 for C, three GHASH_STEPs for S, GCTR on J0 for T, the host copying each result into the next operand. -/
def Obligations.GcmEqualsItsUnits : Prop :=
  ∀ s s1 s2 s3 s4 s5 s6 : State,
    exec .aesEnc { s with din := zeroBlock } = .next s1 →
    exec .inc32 { s1 with hkey := s1.dout, ctr := s.iv ++ 0x00000001#32 } = .next s2 →
    exec .gctr { s2 with din := s.din } = .next s3 →
    ghashByCommands { s3 with ghy := zeroBlock } [s.aad, s3.dout, 0x00000000000000800000000000000080] = .next s4 →
    exec .gctr { s4 with ctr := s.iv ++ 0x00000001#32, din := s4.ghy } = .next s5 →
    exec .aesGcmEnc s = .next s6 →
    s6.dout = s3.dout ∧ s6.tag = s5.dout
end

