-- ==== Sys2Proof/Laws/Ghash.lean ====
section
/-!
SUPPORT. Laws/Ghash.lean: the spec lemmas of the GF(2^128) multiplier: what one doubling is, that it is linear, and what the
loop of R203 computes (spec/42_ghash.md R200 to R203).
-/

namespace Sys2Proof.Machine

/-- R201: one doubling, as a shift and a conditional reduction. -/
theorem mulx_eq (a : Stream16) : mulx a = (a >>> 1) ^^^ (if a.getMsbD 127 then reductionStream else 0) := by
  unfold mulx bitAt streamToBits bitsToStream bitwiseRightShift streamXor
  split <;> simp

/-- Doubling is linear over exclusive-or. -/
theorem mulx_xor (a b : Stream16) : mulx (a ^^^ b) = mulx a ^^^ mulx b := by
  simp only [mulx_eq, BitVec.getMsbD_xor]
  cases a.getMsbD 127 <;> cases b.getMsbD 127 <;> simp [BitVec.ushiftRight_xor_distrib]
  · ac_rfl
  · ac_rfl
  · rw [show a >>> 1 ^^^ reductionStream ^^^ (b >>> 1 ^^^ reductionStream) =
      (a >>> 1 ^^^ b >>> 1) ^^^ (reductionStream ^^^ reductionStream) by ac_rfl]
    simp

theorem mulx_zero : mulx 0#128 = 0#128 := by decide

/-- `a` where `b` is set, else zero. -/
def selected (b : Bool) (a : Stream16) : Stream16 := if b then a else 0#128

/-- The exclusive-or of `f 0` to `f (n - 1)`. -/
def xorSum (f : Nat → Stream16) : Nat → Stream16
  | 0 => 0#128
  | n + 1 => xorSum f n ^^^ f n

/-- R203: the loop's invariant, solved: what `n` iterations from bit `i` add to the accumulator `z`. -/
theorem gmulLoop_eq (x : Stream16) (n i : Nat) (z a : Stream16) :
    gmulLoop x n i z a = z ^^^ xorSum (fun k => selected (x.getMsbD (i + k)) (mulx^[k] a)) n := by
  induction n generalizing i z a with
  | zero => simp [gmulLoop, xorSum]
  | succ n ih =>
    rw [gmulLoop, ih]
    have key : ∀ m, xorSum (fun k => selected (x.getMsbD (i + k)) (mulx^[k] a)) (m + 1) =
        selected (x.getMsbD i) a ^^^ xorSum (fun k => selected (x.getMsbD (i + 1 + k)) (mulx^[k] (mulx a))) m := by
      intro m
      induction m with
      | zero => simp [xorSum]
      | succ m ihm =>
        rw [xorSum, ihm, xorSum, BitVec.xor_assoc]
        congr 2
        rw [show i + 1 + m = i + (m + 1) by omega]
        rfl
    rw [key]
    unfold bitAt streamToBits streamXor selected
    cases x.getMsbD i <;> simp [BitVec.xor_assoc]

end Sys2Proof.Machine
end

