-- ==== Sys2Proof/Laws/PerInstr.lean ====
section
/-!
SUPPORT. Laws/PerInstr.lean: what holds of every command as syntax: its word has the format of R100 and the opcode of R102,
and it is the word the opcode table reads back (spec/30_encoding.md R100 to R102; spec/opcode_table.json).
-/

namespace Sys2Proof.Laws.EncodedWord

/-- R100, R101, R102: the command is well-formed, its word passes both checks of form, its fields are MBZ = 0 and the
command's OPCODE, and the table's 32 bits of it read back as the command. -/
def Statement (i : Instr) : Prop :=
  i.wellFormed = true ∧ cmdWordWellFormed (encode i) = true ∧ mbzField (encode i) = 0 ∧
    opcodeField (encode i) = i.opcode ∧ decodeTableWord 32 (encode i).toNat = some i

theorem aesEnc : Statement .aesEnc := by unfold Statement; decide
theorem gmul : Statement .gmul := by unfold Statement; decide
theorem ghashStep : Statement .ghashStep := by unfold Statement; decide
theorem gctr : Statement .gctr := by unfold Statement; decide
theorem inc32 : Statement .inc32 := by unfold Statement; decide
theorem aesGcmEnc : Statement .aesGcmEnc := by unfold Statement; decide

end Sys2Proof.Laws.EncodedWord
end

