-- ==== Sys2Proof/Laws/Representation.lean ====
section
/-!
SUPPORT. Laws/Representation.lean: the spec lemmas of the byte accessors: a stream is its bytes, and a word write changes
its own word (spec/00_scope.md R10; spec/20_memory.md R72).
-/

namespace Sys2Proof.Machine

theorem byteAt_append {w : Nat} (a : BitVec w) (b : Byte) (i : Nat) (h : 8 * (i + 1) ≤ w) :
    byteAt (a ++ b) i = byteAt a i := by
  unfold byteAt
  ext j hj
  simp only [BitVec.getElem_extractLsb', BitVec.getLsbD_append]
  rw [if_neg (by omega)]
  congr 1
  omega

theorem byteAt_append_last {w : Nat} (a : BitVec w) (b : Byte) (i : Nat) (h : w = 8 * i) :
    byteAt (a ++ b) i = b := by
  unfold byteAt
  ext j hj
  simp only [BitVec.getElem_extractLsb', BitVec.getLsbD_append]
  rw [if_pos (by omega), show w + 8 - 8 * (i + 1) + j = j by omega, BitVec.getLsbD_eq_getElem hj]

theorem byteAt_byte (b : Byte) : byteAt b 0 = b := by
  simp [byteAt]

/-- R10: byte `i` of the stream built from `f` is `f i`. -/
theorem byteAt_stream16OfBytes (f : Nat → Byte) {i : Nat} (h : i < 16) : byteAt (stream16OfBytes f) i = f i := by
  unfold stream16OfBytes
  interval_cases i <;>
    (repeat rw [byteAt_append _ _ _ (by omega)]) <;>
    first
      | rw [byteAt_byte]
      | rw [byteAt_append_last _ _ _ (by omega)]

theorem byteAt_stream12OfBytes (f : Nat → Byte) {i : Nat} (h : i < 12) : byteAt (stream12OfBytes f) i = f i := by
  unfold stream12OfBytes
  interval_cases i <;>
    (repeat rw [byteAt_append _ _ _ (by omega)]) <;>
    first
      | rw [byteAt_byte]
      | rw [byteAt_append_last _ _ _ (by omega)]

/-- Bit `n` of a sequence of `m` bytes, in terms of its bytes. -/
theorem getLsbD_eq_byteAt {m : Nat} (s : BitVec (8 * m)) {n : Nat} (h : n < 8 * m) :
    s.getLsbD n = (byteAt s (m - 1 - n / 8)).getLsbD (n % 8) := by
  unfold byteAt
  rw [BitVec.getLsbD_extractLsb', show decide (n % 8 < 8) = true by simp; omega, Bool.true_and]
  congr 1
  omega

/-- R10: two streams with the same bytes are the same stream. -/
theorem stream16_ext {s t : Stream16} (h : ∀ i < 16, byteAt s i = byteAt t i) : s = t := by
  apply BitVec.eq_of_getLsbD_eq
  intro n hn
  rw [getLsbD_eq_byteAt (m := 16) s hn, getLsbD_eq_byteAt (m := 16) t hn, h _ (by omega)]

theorem stream12_ext {s t : Stream12} (h : ∀ i < 12, byteAt s i = byteAt t i) : s = t := by
  apply BitVec.eq_of_getLsbD_eq
  intro n hn
  rw [getLsbD_eq_byteAt (m := 12) s hn, getLsbD_eq_byteAt (m := 12) t hn, h _ (by omega)]

theorem keyWord_ext {s t : KeyWord} (h : ∀ i < 4, byteAt s i = byteAt t i) : s = t := by
  apply BitVec.eq_of_getLsbD_eq
  intro n hn
  rw [getLsbD_eq_byteAt (m := 4) s hn, getLsbD_eq_byteAt (m := 4) t hn, h _ (by omega)]

/-- The stream rebuilt from its own bytes is itself. -/
theorem stream16OfBytes_byteAt (s : Stream16) : stream16OfBytes (byteAt s) = s :=
  stream16_ext fun _ h => byteAt_stream16OfBytes _ h

theorem stream12OfBytes_byteAt (s : Stream12) : stream12OfBytes (byteAt s) = s :=
  stream12_ext fun _ h => byteAt_stream12OfBytes _ h

theorem byteAt_xor {w : Nat} (a b : BitVec w) (i : Nat) : byteAt (a ^^^ b) i = byteAt a i ^^^ byteAt b i := by
  unfold byteAt
  ext j hj
  simp

/-- R13: the bytes of `be32`. -/
theorem byteAt_be32 (a b c d : Byte) :
    byteAt (be32 a b c d) 0 = a ∧ byteAt (be32 a b c d) 1 = b ∧ byteAt (be32 a b c d) 2 = c ∧
      byteAt (be32 a b c d) 3 = d := by
  unfold be32
  refine ⟨?_, ?_, ?_, ?_⟩ <;>
    (repeat rw [byteAt_append _ _ _ (by omega)]) <;>
    first
      | rw [byteAt_byte]
      | rw [byteAt_append_last _ _ _ (by omega)]

/-- Four bytes laid as R72 lays them give back the bus word. -/
theorem bytes_of_word (v : Word) :
    (v.extractLsb' 24 8 ++ v.extractLsb' 16 8 ++ v.extractLsb' 8 8 ++ v.extractLsb' 0 8 : BitVec 32) = v := by
  apply BitVec.eq_of_getLsbD_eq
  intro n hn
  simp only [BitVec.getLsbD_append, BitVec.getLsbD_extractLsb']
  split
  · simp_all
  · split
    · rw [decide_eq_true (by omega), Bool.true_and]; congr 1; omega
    · split <;> rw [decide_eq_true (by omega), Bool.true_and] <;> congr 1 <;> omega

/-- R72: the word just written reads back, and the other words read as before. -/
theorem packWord_unpackWord16 (s : Stream16) {k k' : Nat} (v : Word) (h : k' < 4) :
    packWord (unpackWord16 s k v) k' = if k' = k then v else packWord s k' := by
  unfold packWord unpackWord16
  repeat rw [byteAt_stream16OfBytes _ (by omega)]
  unfold writtenByte
  by_cases e : k' = k
  · subst e
    rw [if_pos rfl, if_pos (by omega), if_pos (by omega), if_pos (by omega), if_pos (by omega),
      show (4 * k' + 3) % 4 = 3 by omega, show (4 * k' + 2) % 4 = 2 by omega, show (4 * k' + 1) % 4 = 1 by omega,
      show 4 * k' % 4 = 0 by omega]
    exact bytes_of_word v
  · rw [if_neg e, if_neg (by omega), if_neg (by omega), if_neg (by omega), if_neg (by omega)]

theorem packWord_unpackWord12 (s : Stream12) {k k' : Nat} (v : Word) (h : k' < 3) :
    packWord (unpackWord12 s k v) k' = if k' = k then v else packWord s k' := by
  unfold packWord unpackWord12
  repeat rw [byteAt_stream12OfBytes _ (by omega)]
  unfold writtenByte
  by_cases e : k' = k
  · subst e
    rw [if_pos rfl, if_pos (by omega), if_pos (by omega), if_pos (by omega), if_pos (by omega),
      show (4 * k' + 3) % 4 = 3 by omega, show (4 * k' + 2) % 4 = 2 by omega, show (4 * k' + 1) % 4 = 1 by omega,
      show 4 * k' % 4 = 0 by omega]
    exact bytes_of_word v
  · rw [if_neg e, if_neg (by omega), if_neg (by omega), if_neg (by omega), if_neg (by omega)]

/-- R11: the entry of a block built from `f`. -/
@[simp] theorem entry_blockOf (f : Fin 4 → Fin 4 → Byte) (r c : Fin 4) : entry (blockOf f) r c = f r c := by
  simp [entry, blockOf]

/-- R11: two blocks with the same entries are the same block. -/
theorem block_ext {a b : Block} (h : ∀ r c : Fin 4, entry a r c = entry b r c) : a = b := by
  apply Vector.ext
  intro r hr
  apply Vector.ext
  intro c hc
  exact h ⟨r, hr⟩ ⟨c, hc⟩

end Sys2Proof.Machine
end

