-- ==== Sys2Proof/Laws/State.lean ====
section
/-!
SUPPORT. Laws/State.lean: beside State, what each named update does to each field, true by unfolding once, so that no later
proof unfolds a record update.
-/

namespace Sys2Proof.Machine

/-! The fields after `complete`. -/

@[simp] theorem State.complete_ieDone (s : State) : (s.complete).ieDone = s.ieDone := rfl
@[simp] theorem State.complete_ieErr (s : State) : (s.complete).ieErr = s.ieErr := rfl
@[simp] theorem State.complete_busy (s : State) : (s.complete).busy = false := rfl
@[simp] theorem State.complete_done (s : State) : (s.complete).done = true := rfl
@[simp] theorem State.complete_err (s : State) : (s.complete).err = s.err := rfl
@[simp] theorem State.complete_errCode (s : State) : (s.complete).errCode = s.errCode := rfl
@[simp] theorem State.complete_curOp (s : State) : (s.complete).curOp = none := rfl
@[simp] theorem State.complete_key (s : State) : (s.complete).key = s.key := rfl
@[simp] theorem State.complete_din (s : State) : (s.complete).din = s.din := rfl
@[simp] theorem State.complete_iv (s : State) : (s.complete).iv = s.iv := rfl
@[simp] theorem State.complete_aad (s : State) : (s.complete).aad = s.aad := rfl
@[simp] theorem State.complete_hkey (s : State) : (s.complete).hkey = s.hkey := rfl
@[simp] theorem State.complete_ghy (s : State) : (s.complete).ghy = s.ghy := rfl
@[simp] theorem State.complete_ctr (s : State) : (s.complete).ctr = s.ctr := rfl
@[simp] theorem State.complete_dout (s : State) : (s.complete).dout = s.dout := rfl
@[simp] theorem State.complete_tag (s : State) : (s.complete).tag = s.tag := rfl
@[simp] theorem State.complete_pending (s : State) : (s.complete).pending = s.pending := rfl
@[simp] theorem State.complete_transcript (s : State) : (s.complete).transcript = s.transcript := rfl
@[simp] theorem State.complete_lag (s : State) : (s.complete).lag = 0 := rfl
@[simp] theorem State.complete_accepted (s : State) : (s.complete).accepted = s.accepted := rfl
@[simp] theorem State.complete_resets (s : State) : (s.complete).resets = s.resets := rfl
@[simp] theorem State.complete_run (s : State) : (s.complete).run = s.run := rfl

/-! The fields after `accept`. -/

@[simp] theorem State.accept_ieDone (s : State) (i : Instr) : (s.accept i).ieDone = s.ieDone := rfl
@[simp] theorem State.accept_ieErr (s : State) (i : Instr) : (s.accept i).ieErr = s.ieErr := rfl
@[simp] theorem State.accept_busy (s : State) (i : Instr) : (s.accept i).busy = true := rfl
@[simp] theorem State.accept_done (s : State) (i : Instr) : (s.accept i).done = false := rfl
@[simp] theorem State.accept_err (s : State) (i : Instr) : (s.accept i).err = s.err := rfl
@[simp] theorem State.accept_errCode (s : State) (i : Instr) : (s.accept i).errCode = s.errCode := rfl
@[simp] theorem State.accept_curOp (s : State) (i : Instr) : (s.accept i).curOp = some i := rfl
@[simp] theorem State.accept_key (s : State) (i : Instr) : (s.accept i).key = s.key := rfl
@[simp] theorem State.accept_din (s : State) (i : Instr) : (s.accept i).din = s.din := rfl
@[simp] theorem State.accept_iv (s : State) (i : Instr) : (s.accept i).iv = s.iv := rfl
@[simp] theorem State.accept_aad (s : State) (i : Instr) : (s.accept i).aad = s.aad := rfl
@[simp] theorem State.accept_hkey (s : State) (i : Instr) : (s.accept i).hkey = s.hkey := rfl
@[simp] theorem State.accept_ghy (s : State) (i : Instr) : (s.accept i).ghy = s.ghy := rfl
@[simp] theorem State.accept_ctr (s : State) (i : Instr) : (s.accept i).ctr = s.ctr := rfl
@[simp] theorem State.accept_dout (s : State) (i : Instr) : (s.accept i).dout = s.dout := rfl
@[simp] theorem State.accept_tag (s : State) (i : Instr) : (s.accept i).tag = s.tag := rfl
@[simp] theorem State.accept_pending (s : State) (i : Instr) : (s.accept i).pending = s.pending := rfl
@[simp] theorem State.accept_transcript (s : State) (i : Instr) : (s.accept i).transcript = s.transcript := rfl
@[simp] theorem State.accept_lag (s : State) (i : Instr) : (s.accept i).lag = Config.latency s i := rfl
@[simp] theorem State.accept_accepted (s : State) (i : Instr) : (s.accept i).accepted = s.accepted + 1 := rfl
@[simp] theorem State.accept_resets (s : State) (i : Instr) : (s.accept i).resets = s.resets := rfl
@[simp] theorem State.accept_run (s : State) (i : Instr) : (s.accept i).run = s.run := rfl

/-! The fields after `taken`. -/

@[simp] theorem State.taken_ieDone (s : State) (rest : List HostEvent) : (s.taken rest).ieDone = s.ieDone := rfl
@[simp] theorem State.taken_ieErr (s : State) (rest : List HostEvent) : (s.taken rest).ieErr = s.ieErr := rfl
@[simp] theorem State.taken_busy (s : State) (rest : List HostEvent) : (s.taken rest).busy = s.busy := rfl
@[simp] theorem State.taken_done (s : State) (rest : List HostEvent) : (s.taken rest).done = s.done := rfl
@[simp] theorem State.taken_err (s : State) (rest : List HostEvent) : (s.taken rest).err = s.err := rfl
@[simp] theorem State.taken_errCode (s : State) (rest : List HostEvent) : (s.taken rest).errCode = s.errCode := rfl
@[simp] theorem State.taken_curOp (s : State) (rest : List HostEvent) : (s.taken rest).curOp = s.curOp := rfl
@[simp] theorem State.taken_key (s : State) (rest : List HostEvent) : (s.taken rest).key = s.key := rfl
@[simp] theorem State.taken_din (s : State) (rest : List HostEvent) : (s.taken rest).din = s.din := rfl
@[simp] theorem State.taken_iv (s : State) (rest : List HostEvent) : (s.taken rest).iv = s.iv := rfl
@[simp] theorem State.taken_aad (s : State) (rest : List HostEvent) : (s.taken rest).aad = s.aad := rfl
@[simp] theorem State.taken_hkey (s : State) (rest : List HostEvent) : (s.taken rest).hkey = s.hkey := rfl
@[simp] theorem State.taken_ghy (s : State) (rest : List HostEvent) : (s.taken rest).ghy = s.ghy := rfl
@[simp] theorem State.taken_ctr (s : State) (rest : List HostEvent) : (s.taken rest).ctr = s.ctr := rfl
@[simp] theorem State.taken_dout (s : State) (rest : List HostEvent) : (s.taken rest).dout = s.dout := rfl
@[simp] theorem State.taken_tag (s : State) (rest : List HostEvent) : (s.taken rest).tag = s.tag := rfl
@[simp] theorem State.taken_pending (s : State) (rest : List HostEvent) : (s.taken rest).pending = rest := rfl
@[simp] theorem State.taken_transcript (s : State) (rest : List HostEvent) : (s.taken rest).transcript = s.transcript := rfl
@[simp] theorem State.taken_lag (s : State) (rest : List HostEvent) : (s.taken rest).lag = s.lag - 1 := rfl
@[simp] theorem State.taken_accepted (s : State) (rest : List HostEvent) : (s.taken rest).accepted = s.accepted := rfl
@[simp] theorem State.taken_resets (s : State) (rest : List HostEvent) : (s.taken rest).resets = s.resets := rfl
@[simp] theorem State.taken_run (s : State) (rest : List HostEvent) : (s.taken rest).run = s.run := rfl

/-! The fields after `recorded`. -/

@[simp] theorem State.recorded_ieDone (s : State) (t : Txn) (r : Response) : (s.recorded t r).ieDone = s.ieDone := rfl
@[simp] theorem State.recorded_ieErr (s : State) (t : Txn) (r : Response) : (s.recorded t r).ieErr = s.ieErr := rfl
@[simp] theorem State.recorded_busy (s : State) (t : Txn) (r : Response) : (s.recorded t r).busy = s.busy := rfl
@[simp] theorem State.recorded_done (s : State) (t : Txn) (r : Response) : (s.recorded t r).done = s.done := rfl
@[simp] theorem State.recorded_err (s : State) (t : Txn) (r : Response) : (s.recorded t r).err = s.err := rfl
@[simp] theorem State.recorded_errCode (s : State) (t : Txn) (r : Response) : (s.recorded t r).errCode = s.errCode := rfl
@[simp] theorem State.recorded_curOp (s : State) (t : Txn) (r : Response) : (s.recorded t r).curOp = s.curOp := rfl
@[simp] theorem State.recorded_key (s : State) (t : Txn) (r : Response) : (s.recorded t r).key = s.key := rfl
@[simp] theorem State.recorded_din (s : State) (t : Txn) (r : Response) : (s.recorded t r).din = s.din := rfl
@[simp] theorem State.recorded_iv (s : State) (t : Txn) (r : Response) : (s.recorded t r).iv = s.iv := rfl
@[simp] theorem State.recorded_aad (s : State) (t : Txn) (r : Response) : (s.recorded t r).aad = s.aad := rfl
@[simp] theorem State.recorded_hkey (s : State) (t : Txn) (r : Response) : (s.recorded t r).hkey = s.hkey := rfl
@[simp] theorem State.recorded_ghy (s : State) (t : Txn) (r : Response) : (s.recorded t r).ghy = s.ghy := rfl
@[simp] theorem State.recorded_ctr (s : State) (t : Txn) (r : Response) : (s.recorded t r).ctr = s.ctr := rfl
@[simp] theorem State.recorded_dout (s : State) (t : Txn) (r : Response) : (s.recorded t r).dout = s.dout := rfl
@[simp] theorem State.recorded_tag (s : State) (t : Txn) (r : Response) : (s.recorded t r).tag = s.tag := rfl
@[simp] theorem State.recorded_pending (s : State) (t : Txn) (r : Response) : (s.recorded t r).pending = s.pending := rfl
@[simp] theorem State.recorded_transcript (s : State) (t : Txn) (r : Response) : (s.recorded t r).transcript = ⟨t, r⟩ :: s.transcript := rfl
@[simp] theorem State.recorded_lag (s : State) (t : Txn) (r : Response) : (s.recorded t r).lag = s.lag := rfl
@[simp] theorem State.recorded_accepted (s : State) (t : Txn) (r : Response) : (s.recorded t r).accepted = s.accepted := rfl
@[simp] theorem State.recorded_resets (s : State) (t : Txn) (r : Response) : (s.recorded t r).resets = s.resets := rfl
@[simp] theorem State.recorded_run (s : State) (t : Txn) (r : Response) : (s.recorded t r).run = s.run := rfl

/-! The fields after `writeCtrl`. -/

@[simp] theorem State.writeCtrl_ieDone (s : State) (v : Word) : (s.writeCtrl v).ieDone = v.getLsbD 0 := rfl
@[simp] theorem State.writeCtrl_ieErr (s : State) (v : Word) : (s.writeCtrl v).ieErr = v.getLsbD 1 := rfl
@[simp] theorem State.writeCtrl_busy (s : State) (v : Word) : (s.writeCtrl v).busy = s.busy := rfl
@[simp] theorem State.writeCtrl_done (s : State) (v : Word) : (s.writeCtrl v).done = s.done := rfl
@[simp] theorem State.writeCtrl_err (s : State) (v : Word) : (s.writeCtrl v).err = s.err := rfl
@[simp] theorem State.writeCtrl_errCode (s : State) (v : Word) : (s.writeCtrl v).errCode = s.errCode := rfl
@[simp] theorem State.writeCtrl_curOp (s : State) (v : Word) : (s.writeCtrl v).curOp = s.curOp := rfl
@[simp] theorem State.writeCtrl_key (s : State) (v : Word) : (s.writeCtrl v).key = s.key := rfl
@[simp] theorem State.writeCtrl_din (s : State) (v : Word) : (s.writeCtrl v).din = s.din := rfl
@[simp] theorem State.writeCtrl_iv (s : State) (v : Word) : (s.writeCtrl v).iv = s.iv := rfl
@[simp] theorem State.writeCtrl_aad (s : State) (v : Word) : (s.writeCtrl v).aad = s.aad := rfl
@[simp] theorem State.writeCtrl_hkey (s : State) (v : Word) : (s.writeCtrl v).hkey = s.hkey := rfl
@[simp] theorem State.writeCtrl_ghy (s : State) (v : Word) : (s.writeCtrl v).ghy = s.ghy := rfl
@[simp] theorem State.writeCtrl_ctr (s : State) (v : Word) : (s.writeCtrl v).ctr = s.ctr := rfl
@[simp] theorem State.writeCtrl_dout (s : State) (v : Word) : (s.writeCtrl v).dout = s.dout := rfl
@[simp] theorem State.writeCtrl_tag (s : State) (v : Word) : (s.writeCtrl v).tag = s.tag := rfl
@[simp] theorem State.writeCtrl_pending (s : State) (v : Word) : (s.writeCtrl v).pending = s.pending := rfl
@[simp] theorem State.writeCtrl_transcript (s : State) (v : Word) : (s.writeCtrl v).transcript = s.transcript := rfl
@[simp] theorem State.writeCtrl_lag (s : State) (v : Word) : (s.writeCtrl v).lag = s.lag := rfl
@[simp] theorem State.writeCtrl_accepted (s : State) (v : Word) : (s.writeCtrl v).accepted = s.accepted := rfl
@[simp] theorem State.writeCtrl_resets (s : State) (v : Word) : (s.writeCtrl v).resets = s.resets := rfl
@[simp] theorem State.writeCtrl_run (s : State) (v : Word) : (s.writeCtrl v).run = s.run := rfl

/-! The fields after `writeStatus`. -/

@[simp] theorem State.writeStatus_ieDone (s : State) (v : Word) : (s.writeStatus v).ieDone = s.ieDone := rfl
@[simp] theorem State.writeStatus_ieErr (s : State) (v : Word) : (s.writeStatus v).ieErr = s.ieErr := rfl
@[simp] theorem State.writeStatus_busy (s : State) (v : Word) : (s.writeStatus v).busy = s.busy := rfl
@[simp] theorem State.writeStatus_done (s : State) (v : Word) : (s.writeStatus v).done = (if v.getLsbD 1 then false else s.done) := rfl
@[simp] theorem State.writeStatus_err (s : State) (v : Word) : (s.writeStatus v).err = (if v.getLsbD 2 then false else s.err) := rfl
@[simp] theorem State.writeStatus_errCode (s : State) (v : Word) : (s.writeStatus v).errCode = (if v.getLsbD 2 then 0 else s.errCode) := rfl
@[simp] theorem State.writeStatus_curOp (s : State) (v : Word) : (s.writeStatus v).curOp = s.curOp := rfl
@[simp] theorem State.writeStatus_key (s : State) (v : Word) : (s.writeStatus v).key = s.key := rfl
@[simp] theorem State.writeStatus_din (s : State) (v : Word) : (s.writeStatus v).din = s.din := rfl
@[simp] theorem State.writeStatus_iv (s : State) (v : Word) : (s.writeStatus v).iv = s.iv := rfl
@[simp] theorem State.writeStatus_aad (s : State) (v : Word) : (s.writeStatus v).aad = s.aad := rfl
@[simp] theorem State.writeStatus_hkey (s : State) (v : Word) : (s.writeStatus v).hkey = s.hkey := rfl
@[simp] theorem State.writeStatus_ghy (s : State) (v : Word) : (s.writeStatus v).ghy = s.ghy := rfl
@[simp] theorem State.writeStatus_ctr (s : State) (v : Word) : (s.writeStatus v).ctr = s.ctr := rfl
@[simp] theorem State.writeStatus_dout (s : State) (v : Word) : (s.writeStatus v).dout = s.dout := rfl
@[simp] theorem State.writeStatus_tag (s : State) (v : Word) : (s.writeStatus v).tag = s.tag := rfl
@[simp] theorem State.writeStatus_pending (s : State) (v : Word) : (s.writeStatus v).pending = s.pending := rfl
@[simp] theorem State.writeStatus_transcript (s : State) (v : Word) : (s.writeStatus v).transcript = s.transcript := rfl
@[simp] theorem State.writeStatus_lag (s : State) (v : Word) : (s.writeStatus v).lag = s.lag := rfl
@[simp] theorem State.writeStatus_accepted (s : State) (v : Word) : (s.writeStatus v).accepted = s.accepted := rfl
@[simp] theorem State.writeStatus_resets (s : State) (v : Word) : (s.writeStatus v).resets = s.resets := rfl
@[simp] theorem State.writeStatus_run (s : State) (v : Word) : (s.writeStatus v).run = s.run := rfl

/-! The fields after `applyReset`. -/

@[simp] theorem State.applyReset_ieDone (s : State) : (s.applyReset).ieDone = false := rfl
@[simp] theorem State.applyReset_ieErr (s : State) : (s.applyReset).ieErr = false := rfl
@[simp] theorem State.applyReset_busy (s : State) : (s.applyReset).busy = false := rfl
@[simp] theorem State.applyReset_done (s : State) : (s.applyReset).done = false := rfl
@[simp] theorem State.applyReset_err (s : State) : (s.applyReset).err = false := rfl
@[simp] theorem State.applyReset_errCode (s : State) : (s.applyReset).errCode = 0 := rfl
@[simp] theorem State.applyReset_curOp (s : State) : (s.applyReset).curOp = none := rfl
@[simp] theorem State.applyReset_key (s : State) : (s.applyReset).key = 0 := rfl
@[simp] theorem State.applyReset_din (s : State) : (s.applyReset).din = 0 := rfl
@[simp] theorem State.applyReset_iv (s : State) : (s.applyReset).iv = 0 := rfl
@[simp] theorem State.applyReset_aad (s : State) : (s.applyReset).aad = 0 := rfl
@[simp] theorem State.applyReset_hkey (s : State) : (s.applyReset).hkey = 0 := rfl
@[simp] theorem State.applyReset_ghy (s : State) : (s.applyReset).ghy = 0 := rfl
@[simp] theorem State.applyReset_ctr (s : State) : (s.applyReset).ctr = 0 := rfl
@[simp] theorem State.applyReset_dout (s : State) : (s.applyReset).dout = 0 := rfl
@[simp] theorem State.applyReset_tag (s : State) : (s.applyReset).tag = 0 := rfl
@[simp] theorem State.applyReset_pending (s : State) : (s.applyReset).pending = s.pending := rfl
@[simp] theorem State.applyReset_transcript (s : State) : (s.applyReset).transcript = s.transcript := rfl
@[simp] theorem State.applyReset_lag (s : State) : (s.applyReset).lag = 0 := rfl
@[simp] theorem State.applyReset_accepted (s : State) : (s.applyReset).accepted = s.accepted := rfl
@[simp] theorem State.applyReset_resets (s : State) : (s.applyReset).resets = s.resets + 1 := rfl
@[simp] theorem State.applyReset_run (s : State) : (s.applyReset).run = s.run := rfl

/-! The fields after `raiseCmdError`. -/

@[simp] theorem State.raiseCmdError_ieDone (s : State) (e : CmdError) : (s.raiseCmdError e).ieDone = s.ieDone := by unfold State.raiseCmdError; split <;> simp_all
@[simp] theorem State.raiseCmdError_ieErr (s : State) (e : CmdError) : (s.raiseCmdError e).ieErr = s.ieErr := by unfold State.raiseCmdError; split <;> simp_all
@[simp] theorem State.raiseCmdError_busy (s : State) (e : CmdError) : (s.raiseCmdError e).busy = s.busy := by unfold State.raiseCmdError; split <;> simp_all
@[simp] theorem State.raiseCmdError_done (s : State) (e : CmdError) : (s.raiseCmdError e).done = s.done := by unfold State.raiseCmdError; split <;> simp_all
@[simp] theorem State.raiseCmdError_err (s : State) (e : CmdError) : (s.raiseCmdError e).err = true := by unfold State.raiseCmdError; split <;> simp_all
@[simp] theorem State.raiseCmdError_errCode (s : State) (e : CmdError) : (s.raiseCmdError e).errCode = (if s.err then s.errCode else e.code) := by unfold State.raiseCmdError; split <;> simp_all
@[simp] theorem State.raiseCmdError_curOp (s : State) (e : CmdError) : (s.raiseCmdError e).curOp = s.curOp := by unfold State.raiseCmdError; split <;> simp_all
@[simp] theorem State.raiseCmdError_key (s : State) (e : CmdError) : (s.raiseCmdError e).key = s.key := by unfold State.raiseCmdError; split <;> simp_all
@[simp] theorem State.raiseCmdError_din (s : State) (e : CmdError) : (s.raiseCmdError e).din = s.din := by unfold State.raiseCmdError; split <;> simp_all
@[simp] theorem State.raiseCmdError_iv (s : State) (e : CmdError) : (s.raiseCmdError e).iv = s.iv := by unfold State.raiseCmdError; split <;> simp_all
@[simp] theorem State.raiseCmdError_aad (s : State) (e : CmdError) : (s.raiseCmdError e).aad = s.aad := by unfold State.raiseCmdError; split <;> simp_all
@[simp] theorem State.raiseCmdError_hkey (s : State) (e : CmdError) : (s.raiseCmdError e).hkey = s.hkey := by unfold State.raiseCmdError; split <;> simp_all
@[simp] theorem State.raiseCmdError_ghy (s : State) (e : CmdError) : (s.raiseCmdError e).ghy = s.ghy := by unfold State.raiseCmdError; split <;> simp_all
@[simp] theorem State.raiseCmdError_ctr (s : State) (e : CmdError) : (s.raiseCmdError e).ctr = s.ctr := by unfold State.raiseCmdError; split <;> simp_all
@[simp] theorem State.raiseCmdError_dout (s : State) (e : CmdError) : (s.raiseCmdError e).dout = s.dout := by unfold State.raiseCmdError; split <;> simp_all
@[simp] theorem State.raiseCmdError_tag (s : State) (e : CmdError) : (s.raiseCmdError e).tag = s.tag := by unfold State.raiseCmdError; split <;> simp_all
@[simp] theorem State.raiseCmdError_pending (s : State) (e : CmdError) : (s.raiseCmdError e).pending = s.pending := by unfold State.raiseCmdError; split <;> simp_all
@[simp] theorem State.raiseCmdError_transcript (s : State) (e : CmdError) : (s.raiseCmdError e).transcript = s.transcript := by unfold State.raiseCmdError; split <;> simp_all
@[simp] theorem State.raiseCmdError_lag (s : State) (e : CmdError) : (s.raiseCmdError e).lag = s.lag := by unfold State.raiseCmdError; split <;> simp_all
@[simp] theorem State.raiseCmdError_accepted (s : State) (e : CmdError) : (s.raiseCmdError e).accepted = s.accepted := by unfold State.raiseCmdError; split <;> simp_all
@[simp] theorem State.raiseCmdError_resets (s : State) (e : CmdError) : (s.raiseCmdError e).resets = s.resets := by unfold State.raiseCmdError; split <;> simp_all
@[simp] theorem State.raiseCmdError_run (s : State) (e : CmdError) : (s.raiseCmdError e).run = s.run := by unfold State.raiseCmdError; split <;> simp_all

/-! The fields after `setDataWord`. -/

@[simp] theorem State.setDataWord_ieDone (s : State) (r : DataReg) (k : Nat) (v : Word) : (s.setDataWord r k v).ieDone = s.ieDone := by cases r <;> rfl
@[simp] theorem State.setDataWord_ieErr (s : State) (r : DataReg) (k : Nat) (v : Word) : (s.setDataWord r k v).ieErr = s.ieErr := by cases r <;> rfl
@[simp] theorem State.setDataWord_busy (s : State) (r : DataReg) (k : Nat) (v : Word) : (s.setDataWord r k v).busy = s.busy := by cases r <;> rfl
@[simp] theorem State.setDataWord_done (s : State) (r : DataReg) (k : Nat) (v : Word) : (s.setDataWord r k v).done = s.done := by cases r <;> rfl
@[simp] theorem State.setDataWord_err (s : State) (r : DataReg) (k : Nat) (v : Word) : (s.setDataWord r k v).err = s.err := by cases r <;> rfl
@[simp] theorem State.setDataWord_errCode (s : State) (r : DataReg) (k : Nat) (v : Word) : (s.setDataWord r k v).errCode = s.errCode := by cases r <;> rfl
@[simp] theorem State.setDataWord_curOp (s : State) (r : DataReg) (k : Nat) (v : Word) : (s.setDataWord r k v).curOp = s.curOp := by cases r <;> rfl
@[simp] theorem State.setDataWord_key (s : State) (r : DataReg) (k : Nat) (v : Word) : (s.setDataWord r k v).key = (if r = .key then unpackWord16 s.key k v else s.key) := by cases r <;> rfl
@[simp] theorem State.setDataWord_din (s : State) (r : DataReg) (k : Nat) (v : Word) : (s.setDataWord r k v).din = (if r = .din then unpackWord16 s.din k v else s.din) := by cases r <;> rfl
@[simp] theorem State.setDataWord_iv (s : State) (r : DataReg) (k : Nat) (v : Word) : (s.setDataWord r k v).iv = (if r = .iv then unpackWord12 s.iv k v else s.iv) := by cases r <;> rfl
@[simp] theorem State.setDataWord_aad (s : State) (r : DataReg) (k : Nat) (v : Word) : (s.setDataWord r k v).aad = (if r = .aad then unpackWord16 s.aad k v else s.aad) := by cases r <;> rfl
@[simp] theorem State.setDataWord_hkey (s : State) (r : DataReg) (k : Nat) (v : Word) : (s.setDataWord r k v).hkey = (if r = .hkey then unpackWord16 s.hkey k v else s.hkey) := by cases r <;> rfl
@[simp] theorem State.setDataWord_ghy (s : State) (r : DataReg) (k : Nat) (v : Word) : (s.setDataWord r k v).ghy = (if r = .ghy then unpackWord16 s.ghy k v else s.ghy) := by cases r <;> rfl
@[simp] theorem State.setDataWord_ctr (s : State) (r : DataReg) (k : Nat) (v : Word) : (s.setDataWord r k v).ctr = (if r = .ctr then unpackWord16 s.ctr k v else s.ctr) := by cases r <;> rfl
@[simp] theorem State.setDataWord_dout (s : State) (r : DataReg) (k : Nat) (v : Word) : (s.setDataWord r k v).dout = s.dout := by cases r <;> rfl
@[simp] theorem State.setDataWord_tag (s : State) (r : DataReg) (k : Nat) (v : Word) : (s.setDataWord r k v).tag = s.tag := by cases r <;> rfl
@[simp] theorem State.setDataWord_pending (s : State) (r : DataReg) (k : Nat) (v : Word) : (s.setDataWord r k v).pending = s.pending := by cases r <;> rfl
@[simp] theorem State.setDataWord_transcript (s : State) (r : DataReg) (k : Nat) (v : Word) : (s.setDataWord r k v).transcript = s.transcript := by cases r <;> rfl
@[simp] theorem State.setDataWord_lag (s : State) (r : DataReg) (k : Nat) (v : Word) : (s.setDataWord r k v).lag = s.lag := by cases r <;> rfl
@[simp] theorem State.setDataWord_accepted (s : State) (r : DataReg) (k : Nat) (v : Word) : (s.setDataWord r k v).accepted = s.accepted := by cases r <;> rfl
@[simp] theorem State.setDataWord_resets (s : State) (r : DataReg) (k : Nat) (v : Word) : (s.setDataWord r k v).resets = s.resets := by cases r <;> rfl
@[simp] theorem State.setDataWord_run (s : State) (r : DataReg) (k : Nat) (v : Word) : (s.setDataWord r k v).run = s.run := by cases r <;> rfl

end Sys2Proof.Machine
end

