-- ==== Sys2Proof/Laws/Step.lean ====
section
/-!
SUPPORT. Laws/Step.lean: what the shared operations and a step can do, said once: who moves next, what a move leaves, which
offset selects which register, and the legal states (spec/00_scope.md R7; spec/10_state.md R52 to R58; spec/20_memory.md R71).
-/

namespace Sys2Proof.Machine

/-- R58 with R39's bound, as propositions. -/
theorem State.legal_iff (s : State) :
    s.legal = true ↔
      s.busy = s.curOp.isSome ∧ (s.busy = true → s.done = false) ∧ (s.err = false ↔ s.errCode = 0) ∧
        s.errCode.toNat ≤ 3 := by
  unfold State.legal
  cases s.busy <;> cases s.done <;> cases s.err <;> simp <;> tauto

theorem State.nextMove_complete_iff (s : State) (i : Instr) : s.nextMove = .complete i ↔ s.EngineTurn i := by
  unfold State.nextMove State.EngineTurn
  by_cases hl : s.legal = true
  · rw [if_pos hl]
    rcases ho : s.curOp with _ | o <;> rcases hp : s.pending with _ | ⟨e, r⟩ <;> simp [hl]
    by_cases h0 : s.lag = 0 <;> simp [h0]
  · simp [hl]

theorem State.nextMove_host_iff (s : State) (e : HostEvent) (rest : List HostEvent) :
    s.nextMove = .host e rest ↔ s.HostTurn e rest := by
  unfold State.nextMove State.HostTurn
  by_cases hl : s.legal = true
  · have hb := ((State.legal_iff s).1 hl).1
    rw [if_pos hl]
    rcases ho : s.curOp with _ | o <;> rcases hp : s.pending with _ | ⟨e', r⟩ <;> simp [hl, hb, ho]
    by_cases h0 : s.lag = 0 <;> simp [h0]
  · simp [hl]

theorem State.nextMove_idle_iff (s : State) :
    s.nextMove = .idle ↔ s.legal = true ∧ s.curOp = none ∧ s.pending = [] := by
  unfold State.nextMove
  by_cases hl : s.legal = true
  · rw [if_pos hl]
    rcases ho : s.curOp with _ | o <;> rcases hp : s.pending with _ | ⟨e', r⟩ <;> simp [hl]
    by_cases h0 : s.lag = 0 <;> simp [h0]
  · simp [hl]

/-- A step that answers a next state is one of the three moves. -/
theorem step_cases {s t : State} (h : step s = .next t) :
    (∃ i, s.EngineTurn i ∧ exec i s = .next t) ∨ (∃ e rest, s.HostTurn e rest ∧ t = s.hostMove e rest) ∨
      ((s.legal = true ∧ s.curOp = none ∧ s.pending = []) ∧ t = s) := by
  unfold step at h
  rcases hm : s.nextMove with i | ⟨e, rest⟩ | _ | _ <;> rw [hm] at h
  · exact .inl ⟨i, (s.nextMove_complete_iff i).1 hm, h⟩
  · simp only [Host.Outcome.next.injEq] at h
    exact .inr (.inl ⟨e, rest, (s.nextMove_host_iff e rest).1 hm, h.symm⟩)
  · simp only [Host.Outcome.next.injEq] at h
    exact .inr (.inr ⟨s.nextMove_idle_iff.1 hm, h.symm⟩)
  · simp at h

/-- R16, R54: every completion answers a next state, and it differs from the state before only in the four registers that
commands write and in the protocol's fields. -/
theorem exec_shape (i : Instr) (s : State) :
    ∃ ghy ctr dout tag, exec i s = .next { s with ghy := ghy, ctr := ctr, dout := dout, tag := tag }.complete := by
  cases i <;> exact ⟨_, _, _, _, rfl⟩

/-- R71: the offsets of aligned control accesses. -/
theorem selectReg_control (off : Offset) (h : off.toNat % 4 = 0) :
    (selectReg off = .id ↔ off = 0x00) ∧ (selectReg off = .ctrl ↔ off = 0x04) ∧
      (selectReg off = .status ↔ off = 0x08) ∧ (selectReg off = .cmd ↔ off = 0x0C) := by
  revert off
  decide +kernel

/-- R71, R75: the transaction's effect is one of the five kinds of write, or nothing. -/
theorem State.afterTxn_cases (s : State) (t : Txn) :
    s.afterTxn t = s ∨
      ∃ off v, t = .write off 4 v ∧ off.toNat % 4 = 0 ∧
        (off = 0x04 ∧ s.afterTxn t = s.writeCtrl v ∨ off = 0x08 ∧ s.afterTxn t = s.writeStatus v ∨
          off = 0x0C ∧ s.afterTxn t = s.writeCmd v ∨
          ∃ r k, selectReg off = .data r k ∧ s.afterTxn t = s.writeData r k v) := by
  rcases t with ⟨off, size⟩ | ⟨off, size, v⟩
  · exact .inl rfl
  · by_cases hw : wordAccess off size = true
    · have hw' := hw
      simp only [wordAccess, Bool.and_eq_true, beq_iff_eq] at hw'
      obtain ⟨rfl, ha⟩ := hw'
      obtain ⟨-, hc, hs, hm⟩ := selectReg_control off ha
      simp only [State.afterTxn, hw, if_true, State.busWrite]
      rcases hr : selectReg off with _ | _ | _ | _ | ⟨r, k⟩ | _
      · exact .inl rfl
      · exact .inr ⟨off, v, rfl, ha, .inl ⟨hc.1 hr, rfl⟩⟩
      · exact .inr ⟨off, v, rfl, ha, .inr (.inl ⟨hs.1 hr, rfl⟩)⟩
      · exact .inr ⟨off, v, rfl, ha, .inr (.inr (.inl ⟨hm.1 hr, rfl⟩))⟩
      · exact .inr ⟨off, v, rfl, ha, .inr (.inr (.inr ⟨r, k, hr, rfl⟩))⟩
      · exact .inl rfl
    · exact .inl (by simp [State.afterTxn, hw])

/-- R52: the three branches of a write to CMD. -/
theorem State.writeCmd_cases (s : State) (v : Word) :
    (s.busy = true ∧ s.writeCmd v = s.raiseCmdError .cmdWhileBusy) ∨
      (s.busy = false ∧ ∃ i, decode v = .command i ∧ s.writeCmd v = s.accept i) ∨
      (s.busy = false ∧ (decode v).command? = none ∧
        s.writeCmd v = { s with done := false }.raiseCmdError .illegalCmd) := by
  unfold State.writeCmd
  cases hb : s.busy
  · rcases hd : decode v with i | _ | op
    · exact .inr (.inl ⟨rfl, i, rfl, by simp⟩)
    · exact .inr (.inr ⟨rfl, rfl, by simp⟩)
    · exact .inr (.inr ⟨rfl, rfl, by simp⟩)
  · exact .inl ⟨rfl, by simp⟩

/-- R53, R75: the three branches of a write to a data register. -/
theorem State.writeData_cases (s : State) (r : DataReg) (k : Nat) (v : Word) :
    (r.readOnly = true ∧ s.writeData r k v = s) ∨
      (r.readOnly = false ∧ s.busy = true ∧ s.writeData r k v = s.raiseCmdError .writeWhileBusy) ∨
      (r.readOnly = false ∧ s.busy = false ∧ s.writeData r k v = s.setDataWord r k v) := by
  unfold State.writeData
  cases hr : r.readOnly <;> cases hb : s.busy <;> simp

/-- R39: recording an error, as one record. -/
theorem State.raiseCmdError_eq (s : State) (e : CmdError) :
    s.raiseCmdError e = { s with err := true, errCode := if s.err then s.errCode else e.code } := by
  unfold State.raiseCmdError
  cases he : s.err <;> simp
  cases s; simp_all

/-- R345: a transaction's effect leaves the transcript alone; its response is recorded on top. -/
theorem State.afterTxn_transcript (s : State) (t : Txn) : (s.afterTxn t).transcript = s.transcript := by
  rcases s.afterTxn_cases t with h | ⟨off, v, -, -, ⟨-, h⟩ | ⟨-, h⟩ | ⟨-, h⟩ | ⟨r, k, -, h⟩⟩ <;> rw [h]
  · simp
  · simp
  · rcases s.writeCmd_cases v with ⟨-, h⟩ | ⟨-, i, -, h⟩ | ⟨-, -, h⟩ <;> rw [h] <;> simp
  · rcases s.writeData_cases r k v with ⟨-, h⟩ | ⟨-, -, h⟩ | ⟨-, -, h⟩ <;> rw [h] <;> simp

/-- A transaction's effect leaves the rest of the host's side alone: the events to come, the reset count, the run's name. -/
theorem State.afterTxn_hostSide (s : State) (t : Txn) :
    (s.afterTxn t).pending = s.pending ∧ (s.afterTxn t).resets = s.resets ∧ (s.afterTxn t).run = s.run := by
  rcases s.afterTxn_cases t with h | ⟨off, v, -, -, ⟨-, h⟩ | ⟨-, h⟩ | ⟨-, h⟩ | ⟨r, k, -, h⟩⟩ <;> rw [h]
  · simp
  · simp
  · simp
  · rcases s.writeCmd_cases v with ⟨-, h⟩ | ⟨-, i, -, h⟩ | ⟨-, -, h⟩ <;> rw [h] <;> simp
  · rcases s.writeData_cases r k v with ⟨-, h⟩ | ⟨-, -, h⟩ | ⟨-, -, h⟩ <;> rw [h] <;> simp

/-- R70, R345: a transaction is its effect with its response recorded. -/
theorem State.runTxn_eq_recorded (s : State) (t : Txn) : s.runTxn t = (s.afterTxn t).recorded t (s.response t) := by
  unfold State.runTxn State.recorded
  rw [s.afterTxn_transcript t]

/-- R84: the step of a state in which the host moves. -/
theorem step_host {s : State} {e : HostEvent} {rest : List HostEvent} (h : s.HostTurn e rest) :
    step s = .next (s.hostMove e rest) := by
  unfold step
  rw [(s.nextMove_host_iff e rest).2 h]

/-- The five things a host move can be: a transaction, the last or a further read of a WAIT loop, a reset, or a reset after
the transaction that was under way (R107, R320). -/
theorem State.hostMove_cases (s : State) (e : HostEvent) (rest : List HostEvent) :
    (∃ t, e = .txn t ∧ s.hostMove e rest = (s.taken rest).runTxn t) ∨
    (e = .wait ∧ waitExits s.statusWord = true ∧ s.hostMove e rest = (s.taken rest).runTxn (.read statusOffset 4)) ∨
    (e = .wait ∧ waitExits s.statusWord = false ∧
      s.hostMove e rest = { (s.taken rest).runTxn (.read statusOffset 4) with pending := .wait :: rest }) ∨
    (∃ u, e = .reset u ∧ s.hostMove e rest = (s.taken rest).applyReset) ∨
    (∃ t, e = .reset (some t) ∧ s.hostMove e rest = ((s.taken rest).runTxn t).applyReset) := by
  rcases e with t | _ | u
  · exact .inl ⟨t, rfl, rfl⟩
  · have hw : s.hostMove .wait rest = (s.taken rest).waitTurn := rfl
    have hs : (s.taken rest).statusWord = s.statusWord := rfl
    rw [hw]
    unfold State.waitTurn
    rw [hs]
    cases waitExits s.statusWord
    · exact .inr (.inr (.inl ⟨rfl, rfl, rfl⟩))
    · exact .inr (.inl ⟨rfl, rfl, rfl⟩)
  · have hr : s.hostMove (.reset u) rest = (s.taken rest).resetEvent u := rfl
    rcases u with _ | t
    · exact .inr (.inr (.inr (.inl ⟨_, rfl, rfl⟩)))
    · rw [hr]
      unfold State.resetEvent
      simp only
      split
      · exact .inr (.inr (.inr (.inr ⟨t, rfl, rfl⟩)))
      · exact .inr (.inr (.inr (.inl ⟨_, rfl, rfl⟩)))

/-- No step changes the run's name (log entry 2). -/
theorem step_run {s t : State} (h : step s = .next t) : t.run = s.run := by
  rcases step_cases h with ⟨i, -, hx⟩ | ⟨e, rest, -, rfl⟩ | ⟨-, rfl⟩
  · obtain ⟨ghy, ctr, dout, tag, hs⟩ := exec_shape i s
    rw [hs] at hx
    cases hx
    rfl
  · rcases s.hostMove_cases e rest with ⟨x, -, h⟩ | ⟨-, -, h⟩ | ⟨-, -, h⟩ | ⟨u, -, h⟩ | ⟨x, -, h⟩ <;> rw [h]
    · exact ((s.taken rest).afterTxn_hostSide x).2.2
    · exact ((s.taken rest).afterTxn_hostSide _).2.2
    · exact ((s.taken rest).afterTxn_hostSide _).2.2
    · rfl
    · exact ((s.taken rest).afterTxn_hostSide x).2.2
  · rfl

/-- A run of `n + 1` steps is a step and a run of `n`. -/
theorem run_succ {n : Nat} {s u : State} (h : step s = .next u) : core.run (n + 1) s = core.run n u := by
  rw [Host.Core.run.eq_2 core s n, show core.step s = .next u from h]

/-- A run of `n + 1` steps that answers a next state begins with a step that does. -/
theorem run_succ_cases {n : Nat} {s t : State} (h : core.run (n + 1) s = .next t) :
    ∃ u, step s = .next u ∧ core.run n u = .next t := by
  rw [Host.Core.run.eq_2 core s n] at h
  cases hs : step s with
  | next u => rw [show core.step s = .next u from hs] at h; exact ⟨u, rfl, h⟩
  | fault r => rw [show core.step s = .fault r from hs] at h; cases h
  | refused r => rw [show core.step s = .refused r from hs] at h; cases h

end Sys2Proof.Machine
end

