-- ==== Sys2Proof/Tests/Slice0.lean ====
section
/-!
SUPPORT. Tests/Slice0.lean: the model's own tests, each expected value taken from spec/95_test_vectors.md or a rule's example,
and for each obligation with hypotheses a witness: concrete values that meet them all.
-/

namespace Sys2Proof.Tests

open Sys2Proof Sys2Proof.Machine

/-- The next state of an outcome, where it has one. -/
def landed : Host.Outcome State Fault Refusal → Option State
  | .next s => some s
  | .fault _ => none
  | .refused _ => none

/-- An idle engine with the given host events to come. -/
def idleWith (es : List HostEvent) : State := { State.reset with pending := es }

/-- An engine with a command in flight, with the given number of host events that may precede its completion. -/
def busyWith (i : Instr) (lag : Nat) (es : List HostEvent) : State :=
  { State.reset with busy := true, curOp := some i, lag := lag, accepted := 1, pending := es }

/-! ### Form: each check refuses an ill-formed term -/

theorem test_wellFormed_refuses_mbz :
    cmdWordMbzZero 0x00000101 = false ∧ cmdWordWellFormed 0x00000101 = false ∧ decode 0x00000101 = .mbzNotZero := by decide

theorem test_wellFormed_refuses_opcode :
    cmdWordOpcodeKnown 0x00000000 = false ∧ cmdWordOpcodeKnown 0x00000007 = false ∧
      cmdWordWellFormed 0x000000ff = false ∧ decode 0x00000007 = .unknownOpcode 0x07 := by decide

theorem test_wellFormed_refuses_size :
    (Txn.read 0x10 1).wellFormed = false ∧ (Txn.read 0x10 2).wellFormed = false ∧
      (Txn.write 0x10 8 0).wellFormed = false := by decide

theorem test_wellFormed_refuses_unaligned :
    (Txn.read 0x12 4).wellFormed = false ∧ (Txn.write 0x12 4 0xab).wellFormed = false := by decide

theorem test_wellFormed_accepts :
    ([1, 2, 3, 4, 5, 6].all cmdWordWellFormed && (Txn.read 0xFC 4).wellFormed) = true := by decide

/-! ### Decoding: the words of R102, bit by bit -/

theorem test_decode_aesEnc : decode 0b00000000000000000000000000000001 = .command .aesEnc := by decide
theorem test_decode_gmul : decode 0b00000000000000000000000000000010 = .command .gmul := by decide
theorem test_decode_ghashStep : decode 0b00000000000000000000000000000011 = .command .ghashStep := by decide
theorem test_decode_gctr : decode 0b00000000000000000000000000000100 = .command .gctr := by decide
theorem test_decode_inc32 : decode 0b00000000000000000000000000000101 = .command .inc32 := by decide
theorem test_decode_aesGcmEnc : decode 0b00000000000000000000000000000110 = .command .aesGcmEnc := by decide

/-! ### Commands: V-AES, V-GM, V-GH, V-CTR, V-INC, V-GCM -/

/-- V-AES-1 (S-1). -/
theorem test_aesEnc_fips : ((landed (exec .aesEnc { State.reset with
      key := 0x2b7e151628aed2a6abf7158809cf4f3c, din := 0x3243f6a8885a308d313198a2e0370734 })).map State.dout) =
    some 0x3925841d02dc09fbdc118597196a0b32 := by decide +kernel

/-- V-AES-5. -/
theorem test_aesEnc_subkey : ((landed (exec .aesEnc { State.reset with
      key := 0x31313131313131313131313131313131 })).map State.dout) =
    some 0x10dfc1b5f66cfd6a1dc46d66907beeb1 := by decide +kernel

/-- V-GM-7. -/
theorem test_gmul_rfc8452 : ((landed (exec .gmul { State.reset with
      din := 0x4f4f95668c83dfb6401762bb2d01a262, hkey := 0x25629347589242761d31f826ba4b757b })).map State.dout) =
    some 0x3d040f6603b2e4b419373b52eda5c154 := by decide +kernel

/-- V-GM-6: the element x times H is `mulx(H)`. -/
theorem test_gmul_by_x : ((landed (exec .gmul { State.reset with
      din := 0x40000000000000000000000000000000, hkey := 0x25629347589242761d31f826ba4b757b })).map State.dout) =
    some 0xf3b149a3ac49213b0e98fc135d25babd := by decide +kernel

/-- V-GH-1, step 2: GHY is source and destination. -/
theorem test_ghashStep_second : ((landed (exec .ghashStep { State.reset with
      ghy := 0x3d040f6603b2e4b419373b52eda5c154, din := 0xd1a24ddd2721d006bbe45f20d3c9f362,
      hkey := 0x25629347589242761d31f826ba4b757b })).map fun t => (t.ghy, t.dout)) =
    some (0xbd9b3997046731fb96251b91f9c99d7a, 0) := by decide +kernel

/-- V-GH-3. -/
theorem test_ghashStep_cancels : ((landed (exec .ghashStep { State.reset with
      ghy := 0xd1a24ddd2721d006bbe45f20d3c9f362, din := 0xd1a24ddd2721d006bbe45f20d3c9f362,
      hkey := 0x25629347589242761d31f826ba4b757b })).map State.ghy) = some 0 := by decide +kernel

/-- V-CTR-1. -/
theorem test_gctr_source : ((landed (exec .gctr { State.reset with
      key := 0x31313131313131313131313131313131, ctr := 0x31313131313131313131313100000002,
      din := 0x7465737468656c6c6f30303030303030 })).map fun t => (t.dout, t.ctr)) =
    some (0x2929d2bb1ae94804402b8e776e0d3356, 0x31313131313131313131313100000003) := by decide +kernel

/-- V-CTR-2: the counter word wraps, and DOUT uses the old counter. -/
theorem test_gctr_wraps : ((landed (exec .gctr { State.reset with
      key := 0x2b7e151628aed2a6abf7158809cf4f3c, ctr := 0x000102030405060708090a0bffffffff,
      din := 0x00112233445566778899aabbccddeeff })).map fun t => (t.dout, t.ctr)) =
    some (0xbda6e2dc0d241f3574f1440aba4f120b, 0x000102030405060708090a0b00000000) := by decide +kernel

/-- V-INC-3: the carry between bytes 15 and 14. -/
theorem test_inc32_carries : ((landed (exec .inc32 { State.reset with
      ctr := 0xabababababababababababab000000ff })).map State.ctr) =
    some 0xabababababababababababab00000100 := by decide +kernel

/-- V-INC-6. -/
theorem test_inc32_wraps : ((landed (exec .inc32 { State.reset with
      ctr := 0xababababababababababababffffffff })).map State.ctr) =
    some 0xabababababababababababab00000000 := by decide +kernel

/-- V-GCM-2 with V-GCM-5: HKEY, GHY and CTR keep their values. -/
theorem test_aesGcmEnc_source : ((landed (exec .aesGcmEnc { State.reset with
      key := 0x31313131313131313131313131313131, iv := 0x313131313131313131313131,
      din := 0x7465737468656c6c6f30303030303030, hkey := 0x25629347589242761d31f826ba4b757b,
      ghy := 0xbd9b3997046731fb96251b91f9c99d7a, ctr := 0xabababababababababababab00000005 })).map
        fun t => [t.dout, t.tag, t.hkey, t.ghy, t.ctr]) =
    some [0x2929d2bb1ae94804402b8e776e0d3356, 0x9a636f50dc842820c798d001d9a9c4bd, 0x25629347589242761d31f826ba4b757b,
      0xbd9b3997046731fb96251b91f9c99d7a, 0xabababababababababababab00000005] := by decide +kernel

/-- V-GCM-3: with associated data. -/
theorem test_aesGcmEnc_aad : ((landed (exec .aesGcmEnc { State.reset with
      key := 0x000102030405060708090a0b0c0d0e0f, iv := 0x000102030405060708090a0b,
      din := 0x00112233445566778899aabbccddeeff, aad := 0xffeeddccbbaa99887766554433221100 })).map
        fun t => (t.dout, t.tag)) =
    some (0x937d85fd224e9123c34bcb31fa7e9ef7, 0x2fc8bcc2727df86fc9d1a0853f7cc609) := by decide +kernel

/-- V-GCM-1 (R322): the command placed right after reset runs in the next step. -/
theorem test_withFetchWord_runs_next :
    ((landed (step (State.reset.withFetchWord 32 0x6))).map fun t => (t.dout, t.tag, t.statusWord)) =
      some (0x0388dace60b6a392f328c2b971b2fe78, 0xd24e503a1bb037071c71b35d987b8657, 0x00000002) := by decide +kernel

/-- V-ENV-2: an illegal word placed right after reset is the next CMD write, and it is refused by the engine. -/
theorem test_withFetchWord_illegal :
    ((landed (step (State.reset.withFetchWord 32 0x0))).map State.statusWord) = some 0x00000104 := by decide +kernel

/-! ### Units -/

/-- V-SB-1, V-SB-2. -/
theorem test_sbox : [sbox 0x00, sbox 0x01, sbox 0x10, sbox 0x53, sbox 0xff, sbox 0xbd, sbox 0xdf] =
    [0x63, 0x7c, 0xca, 0xed, 0x16, 0x7a, 0x9e] := by decide +kernel

/-- V-GF8-1 to V-GF8-3. -/
theorem test_gf8 : xtime 0x57 = 0xae ∧ xtime 0x80 = 0x1b ∧ gf8Mul 0x57 0x83 = 0xc1 := by decide

/-- V-SR-1. -/
theorem test_shiftRows : shiftRows
    #v[#v[0x00, 0x01, 0x02, 0x03], #v[0x10, 0x11, 0x12, 0x13], #v[0x20, 0x21, 0x22, 0x23], #v[0x30, 0x31, 0x32, 0x33]] =
    #v[#v[0x00, 0x01, 0x02, 0x03], #v[0x11, 0x12, 0x13, 0x10], #v[0x22, 0x23, 0x20, 0x21], #v[0x33, 0x30, 0x31, 0x32]] := by
  decide +kernel

/-- V-AES-1: round 1, layer by layer. -/
theorem test_round_layers :
    toStream (subBytes (toBlock 0x193de3bea0f4e22b9ac68d2ae9f84808)) = 0xd42711aee0bf98f1b8b45de51e415230 ∧
      toStream (shiftRows (toBlock 0xd42711aee0bf98f1b8b45de51e415230)) = 0xd4bf5d30e0b452aeb84111f11e2798e5 ∧
      toStream (mixColumns (toBlock 0xd4bf5d30e0b452aeb84111f11e2798e5)) = 0x046681e5e0cb199a48f8d37a2806264c := by
  decide +kernel

/-- V-KS-1: round key 10. -/
theorem test_round_key : roundKey (expand 0x2b7e151628aed2a6abf7158809cf4f3c) 10 =
    0xd014f9a8c9ee2589e13f0cc8b6630ca6 := by decide +kernel

/-- V-REP-6, V-REP-8. -/
theorem test_representation : bitwiseRightShift 0x00000000000000000000000000000001 = 0 ∧
    hostLoad16 .key 0x2b7e151628aed2a6abf7158809cf4f3c =
      [hostWr 0x10 0x16157e2b, hostWr 0x14 0xa6d2ae28, hostWr 0x18 0x8815f7ab, hostWr 0x1C 0x3c4fcf09] := by decide +kernel

/-- P5, lines 30 to 33: STORE DOUT. -/
theorem test_store_unpacks : storedStream16 0x1d842539 0xfb09dc02 0x978511dc 0x320b6a19 =
    0x3925841d02dc09fbdc118597196a0b32 ∧ hostStore .iv = [hostRd 0x30, hostRd 0x34, hostRd 0x38] := by decide +kernel

/-! ### The register envelope: V-ENV -/

/-- V-ENV-5: an illegal word while idle clears DONE. -/
theorem test_illegal_clears_done :
    ((landed (step { idleWith [hostWr 0x0C 0x00000009] with done := true })).map State.statusWord) =
      some 0x00000104 := by decide +kernel

/-- V-ENV-6, V-ENV-7: any CMD write while busy leaves BUSY, ERR and ERRCODE 3. The vectors print the word as 0x00000301, which
has ERR = 0; by R35, R39 and R52 it is 0x00000305 (log entry 13). -/
theorem test_cmd_while_busy :
    ((landed (step (busyWith .aesEnc 5 [hostWr 0x0C 0x00000001]))).map State.statusWord) = some 0x00000305 ∧
      ((landed (step (busyWith .aesEnc 5 [hostWr 0x0C 0xffffffff]))).map State.statusWord) = some 0x00000305 := by
  decide +kernel

/-- V-ENV-8, V-ENV-21 (both orders): an operand write against a completion. -/
theorem test_write_while_busy :
    ((landed (step (busyWith .aesEnc 1 [hostWr 0x24 0x12345678]))).map fun t => (t.din, t.statusWord)) =
        some (0, 0x00000205) ∧
      ((landed (core.run 2 (busyWith .inc32 0 [hostWr 0x24 0x12345678]))).map fun t => (t.din, t.statusWord)) =
        some (0x00000000785634120000000000000000, 0x00000002) := by decide +kernel

/-- V-ENV-9: the first error is kept. -/
theorem test_first_error_kept :
    ((landed (step { busyWith .aesEnc 5 [hostWr 0x0C 0x00000001] with err := true, errCode := 2 })).map
      State.statusWord) = some 0x00000205 := by decide +kernel

/-- V-ENV-14 to V-ENV-16: the W1C bits one by one. -/
theorem test_w1c : (let s : State := { State.reset with done := true, err := true, errCode := 1 }
    [(s.writeStatus 0x00000002).statusWord, (s.writeStatus 0x00000004).statusWord,
      (s.writeStatus 0xfffffff9).statusWord] = [0x00000104, 0x00000002, 0x00000106]) := by decide +kernel

/-- V-ENV-11: bus errors, and STATUS stays 0. -/
theorem test_bus_errors :
    (([Txn.read 0x10 1, .read 0x10 2, .write 0x10 8 0xff, .read 0x12 4].map fun t =>
      ((State.reset.runTxn t).statusWord, State.reset.response t))) =
      [(0, .busError), (0, .busError), (0, .busError), (0, .busError)] := by decide +kernel

/-- V-ENV-17, V-ENV-18: CTRL's reserved bits and irq. -/
theorem test_ctrl_and_irq : (State.reset.writeCtrl 0xffffffff).ctrlWord = 0x00000003 ∧
    ([(true, true, false, false), (false, true, false, false), (false, false, true, true), (false, true, true, false),
      (true, false, true, false)].map fun (a, b, c, d) =>
        ({ State.reset with ieDone := a, done := b, ieErr := c, err := d } : State).irq) =
      [true, false, true, false, false] := by decide +kernel

/-- V-ENV-20: reset discards the command in flight. -/
theorem test_reset_discards :
    ((landed (step { busyWith .aesEnc 1 [.reset none] with ieDone := true, key := 5 })).map fun t =>
      (t.busy, t.key, t.dout, t.irq)) = some (false, 0, 0, false) := by decide +kernel

/-- R107, R338: a WAIT exits on DONE, and goes on while neither DONE nor ERR is set. -/
theorem test_wait_turns :
    ((landed (step { idleWith [.wait] with done := true })).map State.pending) = some [] ∧
      ((landed (step (busyWith .aesEnc 3 [.wait]))).map State.pending) = some [.wait] := by decide +kernel

/-! ### Witnesses: values that meet the hypotheses of each obligation that has some -/

/-- Whether a word is in the range of R105: the hypothesis of the decoder's first clause. -/
abbrev InRange (v : Word) : Prop :=
  v.extractLsb' 8 24 = 0 ∧ 0x01 ≤ (v.extractLsb' 0 8).toNat ∧ (v.extractLsb' 0 8).toNat ≤ 0x06

theorem witness_DecoderIsTotalOnAllWords : InRange 0x01 ∧ InRange 0x06 ∧ ¬InRange 0x00 ∧ ¬InRange 0x07 ∧
    ¬InRange 0xff ∧ ¬InRange 0x101 ∧ (busyWith .gmul 1 []).busy = true := by decide

theorem witness_StepRunsCommandInFlight :
    (busyWith .gctr 0 [hostAck]).EngineTurn .gctr ∧ (busyWith .inc32 7 []).EngineTurn .inc32 := by decide

theorem witness_CommandWriteAcceptsOrRecordsError :
    (busyWith .aesEnc 1 [hostWr 0x0C 0x2]).HostTurn (.txn (.write 0x0C 4 0x2)) [] ∧
    (busyWith .aesEnc 1 [hostWr 0x0C 0x2]).busy = true ∧
    (idleWith [hostWr 0x0C 0x07]).HostTurn (.txn (.write 0x0C 4 0x07)) [] ∧ (idleWith [hostWr 0x0C 0x07]).busy = false ∧
    ¬InRange 0x07 ∧
    (idleWith [hostWr 0x0C 0x101]).HostTurn (.txn (.write 0x0C 4 0x101)) [] ∧ ¬InRange 0x101 ∧
    (∀ i ∈ [Instr.aesEnc, .aesGcmEnc], (idleWith [hostCmd i]).HostTurn (.txn (.write 0x0C 4 (encode i))) [] ∧
      (encode i).extractLsb' 8 24 = 0 ∧ (encode i).extractLsb' 0 8 = i.opcode) := by decide

theorem witness_EveryUnlistedWordIsIllegal : State.reset.busy = false ∧
    (0x00000100 : Word).extractLsb' 0 8 = 0x00 ∧ 0x07 ≤ ((0x00000007 : Word).extractLsb' 0 8).toNat ∧
    0x07 ≤ ((0x000000ff : Word).extractLsb' 0 8).toNat ∧ (0x00000101 : Word).extractLsb' 8 24 ≠ 0 := by decide

theorem witness_PlacedCommandRunsNext : State.reset.legal = true ∧ (busyWith .gmul 3 [hostAck]).legal = true := by decide

theorem witness_AesEncCompletes : ∃ t u, exec .aesEnc State.reset = .next t ∧ exec .aesEnc t = .next u := ⟨_, _, rfl, rfl⟩

theorem witness_GmulCompletes : (0 : Stream16) = 0 ∨ (1 : Stream16) = 0 := by decide

theorem witness_GhashStepCompletes : ((7 : Stream16) = 7 ∨ (5 : Stream16) = 0) ∧ ((7 : Stream16) = 6 ∨ (0 : Stream16) = 0) := by
  decide

/-- Two plaintexts that agree on their first three bytes only. -/
theorem witness_GctrCompletes : 3 ≤ 16 ∧
    (∀ i < 3, byteAt (0x01020304000000000000000000000000 : Stream16) i =
      byteAt (0x010203ff000000000000000000000000 : Stream16) i) := by decide

theorem witness_Inc32Completes : 0 < 12 ∧ 11 < 12 := by decide

theorem witness_AesGcmEncCompletes : ∃ h j0 c y t : Stream16,
    h = encryptBlock zeroBlock State.reset.key ∧ j0 = State.reset.iv ++ 0x00000001#32 ∧
    c = streamXor State.reset.din (encryptBlock (inc32 j0) State.reset.key) ∧
    y = ghash h [State.reset.aad, c, 0x00000000000000800000000000000080] ∧
    t = streamXor y (encryptBlock j0 State.reset.key) := ⟨_, _, _, _, _, rfl, rfl, rfl, rfl, rfl⟩

/-- The first and the last word that AES_ENC leaves, next to DOUT, which it writes. -/
theorem witness_CompletionFrame : (∃ t, exec .aesEnc State.reset = .next t) ∧
    (∀ off ∈ ([0x00, 0x10, 0x7C, 0x90, 0xFC] : List Offset), selectReg off ≠ .status) ∧
    selectReg 0x7C = .data .ctr 3 ∧ commandWrites .aesEnc .ctr = false ∧
    selectReg 0x90 = .data .tag 0 ∧ commandWrites .aesEnc .tag = false := ⟨⟨_, rfl⟩, by decide⟩

/-- Two states that differ in everything but GMUL's operands. -/
theorem witness_ResultsDependOnOperandsOnly :
    State.reset.AgreeOnOperands .gmul { State.reset with key := 1, ghy := 2, dout := 3, err := true, errCode := 1 } ∧
    (∃ t, exec .gmul State.reset = .next t) ∧
    (∃ t, exec .gmul { State.reset with key := 1, ghy := 2, dout := 3, err := true, errCode := 1 } = .next t) ∧
    commandWrites .gmul .dout = true := ⟨⟨rfl, rfl⟩, ⟨_, rfl⟩, ⟨_, rfl⟩, rfl⟩

theorem witness_StepKeepsProtocolInvariants :
    (∃ s : State, s = { busyWith .aesEnc 1 [hostAck] with err := true, errCode := 3 } ∧
      ((s.busy = true → s.done = false) ∧ (s.err = false ↔ s.errCode = 0) ∧ (s.busy = true ↔ s.curOp ≠ none) ∧
        s.errCode.toNat ≤ 3) ∧ ∃ t, step s = .next t) := ⟨_, rfl, by decide, _, rfl⟩

/-- An ACK while the command is in flight. -/
theorem witness_RegistersStableWhileInFlight : ∃ t, core.run 1 (busyWith .aesEnc 2 [hostAck]) = .next t ∧
    (busyWith .aesEnc 2 [hostAck]).legal = true ∧ (busyWith .aesEnc 2 [hostAck]).busy = true ∧
    t.accepted = (busyWith .aesEnc 2 [hostAck]).accepted ∧ t.resets = (busyWith .aesEnc 2 [hostAck]).resets ∧
    t.busy = true := ⟨_, rfl, by decide, by decide, rfl, rfl, rfl⟩

/-- An operand write that is dropped, then the completion. -/
theorem witness_OutputsAreOfAcceptedOperands : ∃ t u, core.run 2 (busyWith .gmul 1 [hostWr 0x20 7]) = .next t ∧
    (busyWith .gmul 1 [hostWr 0x20 7]).legal = true ∧ (busyWith .gmul 1 [hostWr 0x20 7]).curOp = some .gmul ∧
    exec .gmul (busyWith .gmul 1 [hostWr 0x20 7]) = .next u ∧
    t.accepted = (busyWith .gmul 1 [hostWr 0x20 7]).accepted ∧ t.resets = (busyWith .gmul 1 [hostWr 0x20 7]).resets ∧
    t.busy = false := ⟨_, _, rfl, by decide, rfl, rfl, rfl, rfl, rfl⟩

theorem witness_BusySetByAcceptanceClearedByCompletion :
    (∃ t, step (idleWith [hostCmd .gmul]) = .next t ∧ t.busy = true) ∧ (idleWith [hostCmd .gmul]).busy = false ∧
    (idleWith [hostCmd .gmul]).HostTurn (.txn (.write 0x0C 4 (encode .gmul))) [] ∧
    (∃ t, step (busyWith .inc32 0 []) = .next t ∧ t.busy = false) ∧ (busyWith .inc32 0 []).EngineTurn .inc32 ∧
    (∃ t, step (busyWith .inc32 1 [.reset none]) = .next t ∧ t.busy = false) :=
  ⟨⟨_, rfl, rfl⟩, rfl, by decide, ⟨_, rfl, rfl⟩, by decide, ⟨_, rfl, rfl⟩⟩

theorem witness_DoneSetByCompletionOnly :
    (∃ t, step (busyWith .inc32 0 []) = .next t ∧ t.done = true) ∧ (busyWith .inc32 0 []).done = false ∧
    (busyWith .inc32 0 []).EngineTurn .inc32 ∧
    (∃ t, step { idleWith [hostAck] with done := true } = .next t ∧ t.done = false) ∧
    ({ idleWith [hostAck] with done := true } : State).HostTurn (.txn (.write 0x08 4 6)) [] ∧ (6 : Word).getLsbD 1 = true ∧
    ({ idleWith [.reset none] with done := true } : State).HostTurn (.reset none) [] ∧
    ({ idleWith [hostWr 0x0C 0] with done := true } : State).HostTurn (.txn (.write 0x0C 4 0)) [] :=
  ⟨⟨_, rfl, rfl⟩, rfl, by decide, ⟨_, rfl, rfl⟩, by decide, by decide, by decide, by decide⟩

theorem witness_FirstErrorIsKept :
    (∃ t, step { idleWith [hostWr 0x0C 0] with err := true, errCode := 2 } = .next t) ∧
    (∃ t, step { idleWith [hostWr 0x08 4] with err := true, errCode := 2 } = .next t ∧ t.err = false) ∧
    (∃ t, step { busyWith .inc32 0 [] with err := true, errCode := 2 } = .next t) ∧
    ({ busyWith .inc32 0 [] with err := true, errCode := 2 } : State).EngineTurn .inc32 :=
  ⟨⟨_, rfl⟩, ⟨_, rfl, rfl⟩, ⟨_, rfl⟩, by decide⟩

theorem witness_OutputsChangeByCompletionOnly : ∃ t,
    step { idleWith [.reset none] with dout := 1, tag := 2 } = .next t ∧ t.dout ≠ 1 ∧ t.tag ≠ 2 :=
  ⟨_, rfl, by decide, by decide⟩

/-- For each of the five registers, a write to its last word that changes it; nothing else is under way. -/
theorem witness_OperandsChangeByIdleHostWriteOnly :
    (∀ off ∈ ([0x1C, 0x2C, 0x38, 0x4C, 0x5C] : List Offset),
      (idleWith [hostWr off 1]).HostTurn (.txn (.write off 4 1)) [] ∧ (idleWith [hostWr off 1]).busy = false ∧
      ∃ t, step (idleWith [hostWr off 1]) = .next t) ∧
    (∀ off : Offset, ∀ u rest, ¬ (idleWith [hostWr off 1]).HostTurn (.reset u) rest) ∧
    (∃ t, step (idleWith [hostWr 0x1C 1]) = .next t ∧ t.key ≠ 0) ∧ (∃ t, step (idleWith [hostWr 0x2C 1]) = .next t ∧ t.din ≠ 0) ∧
    (∃ t, step (idleWith [hostWr 0x38 1]) = .next t ∧ t.iv ≠ 0) ∧ (∃ t, step (idleWith [hostWr 0x4C 1]) = .next t ∧ t.aad ≠ 0) ∧
    (∃ t, step (idleWith [hostWr 0x5C 1]) = .next t ∧ t.hkey ≠ 0) :=
  ⟨fun _ _ => ⟨⟨rfl, rfl, fun h => nomatch h⟩, rfl, _, rfl⟩, fun off u rest h => by simp [idleWith, hostWr, State.HostTurn] at h, ⟨_, rfl, by decide⟩,
    ⟨_, rfl, by decide⟩, ⟨_, rfl, by decide⟩, ⟨_, rfl, by decide⟩, ⟨_, rfl, by decide⟩⟩

theorem witness_EveryRunEnds : (busyWith .gmul 9 [hostCmd .inc32, hostAck, .reset none]).legal = true ∧
    hasWait [hostCmd .inc32, hostAck, .reset none] = false := by decide

theorem witness_WaitLoopEnds : (busyWith .gmul 4 [.wait, hostAck]).legal = true ∧
    (busyWith .gmul 4 [.wait, hostAck]).busy = true ∧
    (busyWith .gmul 4 [.wait, hostAck]).pending = .wait :: [hostAck] := by decide

theorem witness_BusErrorChangesNothing :
    (∀ x ∈ ([(0x10, 1), (0x10, 8), (0x12, 4), (0xFF, 4)] : List (Offset × Nat)),
      (x.2 ≠ 4 ∨ x.1.toNat % 4 ≠ 0) ∧ (idleWith [hostRdSized x.2 x.1]).HostTurn (.txn (.read x.1 x.2)) [] ∧
      (busyWith .gmul 1 [hostWrSized x.2 x.1 3]).HostTurn (.txn (.write x.1 x.2 3)) []) ∧
    (0xFC : Offset).toNat % 4 = 0 := by decide

theorem witness_ReadsHaveNoSideEffect : (0x08 : Offset).toNat % 4 = 0 ∧ (0xFC : Offset).toNat % 4 = 0 ∧
    ({ idleWith [hostRd 0x08] with done := true } : State).HostTurn (.txn (.read 0x08 4)) [] ∧
    (busyWith .gmul 1 [hostRd 0xFC]).HostTurn (.txn (.read 0xFC 4)) [] := by decide

theorem witness_RegisterMapReads : 0 < 4 ∧ 3 < 4 ∧ 0 < 3 ∧ 2 < 3 := by decide

theorem witness_WordPackingIsLittleEndian : 0 < 4 ∧ 3 < 4 ∧ 2 < 3 ∧ 15 < 16 ∧ 15 / 4 ≠ 0 ∧ 11 < 12 ∧ 11 / 4 ≠ 0 := by decide

theorem witness_ReservedSpaceReadsZeroIgnoresWrites :
    ∀ off ∈ ([0x3C, 0xA0, 0xFC] : List Offset), off.toNat % 4 = 0 ∧ (off = 0x3C ∨ 0xA0 ≤ off.toNat) ∧
      (idleWith [hostWr off 1]).HostTurn (.txn (.write off 4 1)) [] ∧
      (busyWith .gmul 1 [hostWr off 1]).HostTurn (.txn (.write off 4 1)) [] := by decide

theorem witness_ReadOnlyRegistersIgnoreWrites :
    ∀ off ∈ ([0x00, 0x80, 0x9C] : List Offset), off.toNat % 4 = 0 ∧
      (off = 0x00 ∨ 0x80 ≤ off.toNat ∧ off.toNat < 0xA0) ∧
      (idleWith [hostWr off 1]).HostTurn (.txn (.write off 4 1)) [] ∧
      (busyWith .gmul 1 [hostWr off 1]).HostTurn (.txn (.write off 4 1)) [] := by decide

theorem witness_IdleOperandWriteStoresOneWord :
    ∀ off ∈ ([0x10, 0x38, 0x40, 0x7C] : List Offset), off.toNat % 4 = 0 ∧
      (0x10 ≤ off.toNat ∧ off.toNat < 0x3C ∨ 0x40 ≤ off.toNat ∧ off.toNat < 0x80) ∧
      (idleWith [hostWr off 1]).busy = false ∧ (idleWith [hostWr off 1]).HostTurn (.txn (.write off 4 1)) [] := by decide

theorem witness_BusyOperandWriteIsDropped :
    ∀ off ∈ ([0x04, 0x08, 0x10, 0x38, 0x40, 0x7C] : List Offset), off.toNat % 4 = 0 ∧
      (off = 0x04 ∨ off = 0x08 ∨ 0x10 ≤ off.toNat ∧ off.toNat < 0x3C ∨ 0x40 ≤ off.toNat ∧ off.toNat < 0x80) ∧
      (busyWith .gmul 1 [hostWr off 1]).busy = true ∧
      (busyWith .gmul 1 [hostWr off 1]).HostTurn (.txn (.write off 4 1)) [] := by decide

theorem witness_CtrlHoldsTwoEnableBits : (idleWith [hostWr 0x04 0xffffffff]).HostTurn (.txn (.write 0x04 4 0xffffffff)) [] ∧
    (busyWith .gmul 1 [hostWr 0x04 2]).HostTurn (.txn (.write 0x04 4 2)) [] := by decide

theorem witness_StatusIsWriteOneToClear :
    ({ idleWith [hostAck] with done := true, err := true, errCode := 3 } : State).HostTurn (.txn (.write 0x08 4 6)) [] ∧
    (busyWith .gmul 1 [hostWr 0x08 0xfffffff9]).HostTurn (.txn (.write 0x08 4 0xfffffff9)) [] := by decide

theorem witness_InterruptFollowsStatusAndEnables :
    ({ idleWith [hostAck] with done := true, ieDone := true } : State).HostTurn hostAck [] ∧
    ({ idleWith [hostWr 0x04 0] with err := true, errCode := 1, ieErr := true } : State).HostTurn
      (.txn (.write 0x04 4 0)) [] := by decide

theorem witness_ResetLeavesTheTableOfValues :
    ∀ off ∈ ([0x04, 0x10, 0xFC] : List Offset), off.toNat % 4 = 0 ∧ off ≠ 0x00 := by decide

theorem witness_ResetEventDiscardsEverything :
    (busyWith .gmul 1 [.reset none]).HostTurn (.reset none) [] ∧
    (busyWith .gmul 1 [.reset (some (.write 0x04 4 3))]).HostTurn (.reset (some (.write 0x04 4 3))) [] := by decide

theorem witness_WindowOffsetIsAddressMinusBase :
    Config.base + 256 < Config.base ∨ Config.base + 256 ≤ Config.base + 256 := .inr (Nat.le_refl _)

theorem witness_StreamAndBitsAreInverse : 0 < 16 ∧ 15 < 16 ∧ 0 < 8 ∧ 7 < 8 ∧ 127 < 128 := by decide

theorem witness_XorAndShiftOnBitsAndBytes : 15 < 16 ∧ 3 < 4 ∧ 127 < 128 ∧ 1 ≤ 1 ∧ 1 ≤ 127 ∧ 127 ≤ 127 ∧ 1 ≤ 15 := by decide

theorem witness_SboxIsInverseThenAffine : (0x00 : Byte) = 0 ∧ (0x53 : Byte) ≠ 0 ∧ gf8Mul 0x53 0xca = 1 := by decide

theorem witness_KeyScheduleFollowsFips : 0 < 4 ∧ 3 < 4 ∧ 4 ≤ 4 ∧ 4 ≤ 43 ∧ 43 ≤ 43 := by decide

theorem witness_ScheduleHelpersActOnBytes : 1 ≤ 1 ∧ 1 ≤ 9 ∧ 0 < 4 ∧ 3 < 4 := by decide

/-- V-MC-1: a block whose columns are (db, 13, 53, 45). -/
theorem witness_RoundLayersEntryByEntry :
    (let b := blockOf (fun r _ => ([0xdb, 0x13, 0x53, 0x45] : List Byte).getD r.val 0)
     entry b 0 0 = 0xdb ∧ entry b 1 0 = 0x13 ∧ entry b 2 0 = 0x53 ∧ entry b 3 0 = 0x45) := by decide

/-- The blocks of the rounds themselves. -/
theorem witness_BlockTransformHasTenRounds : ∀ input key : Stream16, ∃ b : Nat → Block,
    b 0 = addRoundKey (expand key) 0 (toBlock input) ∧
    (∀ r, 1 ≤ r → r ≤ 9 → b r = addRoundKey (expand key) r (mixColumns (shiftRows (subBytes (b (r - 1)))))) := by
  intro input key
  refine ⟨fun n => Nat.rec (addRoundKey (expand key) 0 (toBlock input))
    (fun r x => addRoundKey (expand key) (r + 1) (mixColumns (shiftRows (subBytes x)))) n, rfl, ?_⟩
  rintro (_ | r) h1 _
  · exact absurd h1 (by decide)
  · rfl

theorem witness_MulxReducesIntoByteZero :
    bitAt (streamToBits 0x80000000000000000000000000000000) 127 = false ∧
    bitAt (streamToBits 0x00000000000000000000000000000001) 127 = true ∧ 1 ≤ 1 ∧ 1 ≤ 15 ∧ 15 ≤ 15 := by decide

theorem witness_GhashStepsComputeGhash : State.reset.ghy = zeroBlock ∧
    ({ State.reset with hkey := 0x25629347589242761d31f826ba4b757b } : State).hkey = 0x25629347589242761d31f826ba4b757b := by
  decide

theorem witness_Inc32AddsOneToTheCounterWord : 0 < 12 ∧ 11 < 12 := by decide

theorem witness_CounterBlocksOfGcm : 0 < 12 ∧ 11 < 12 := by decide

theorem witness_GcmEqualsItsUnits : ∃ s1 s2 s3 s4 s5 s6 : State,
    exec .aesEnc { State.reset with din := zeroBlock } = .next s1 ∧
    exec .inc32 { s1 with hkey := s1.dout, ctr := State.reset.iv ++ 0x00000001#32 } = .next s2 ∧
    exec .gctr { s2 with din := State.reset.din } = .next s3 ∧
    ghashByCommands { s3 with ghy := zeroBlock } [State.reset.aad, s3.dout, 0x00000000000000800000000000000080] =
      .next s4 ∧
    exec .gctr { s4 with ctr := State.reset.iv ++ 0x00000001#32, din := s4.ghy } = .next s5 ∧
    exec .aesGcmEnc State.reset = .next s6 := ⟨_, _, _, _, _, _, rfl, rfl, rfl, rfl, rfl, rfl⟩

end Sys2Proof.Tests
end

section
/-!
Completions: what a completion writes and what the written values depend on (spec/10_state.md R54, R56;
spec/30_encoding.md R102), and the statement that results are a function of the operand registers (R17).
-/

namespace Sys2Proof.Machine

/-! ### The completion of each command, as a state -/

theorem exec_aesEnc (s : State) : exec .aesEnc s = .next { s with dout := encryptBlock s.din s.key }.complete := rfl

theorem exec_gmul (s : State) : exec .gmul s = .next { s with dout := gmul s.din s.hkey }.complete := rfl

theorem exec_ghashStep (s : State) :
    exec .ghashStep s = .next { s with ghy := ghashFold s.hkey s.ghy s.din }.complete := rfl

theorem exec_gctr (s : State) :
    exec .gctr s = .next { s with dout := gctr s.key s.ctr s.din, ctr := inc32 s.ctr }.complete := rfl

theorem exec_inc32 (s : State) : exec .inc32 s = .next { s with ctr := inc32 s.ctr }.complete := rfl

theorem exec_aesGcmEnc (s : State) :
    exec .aesGcmEnc s =
      .next { s with
        dout := gcmCiphertext s.key s.iv s.din
        tag := gcmTag s.key s.iv s.aad (gcmCiphertext s.key s.iv s.din) }.complete := rfl

/-! ### Written and unwritten registers -/

/-- R102: only GHY, CTR, DOUT and TAG are ever written by a command. -/
theorem commandWrites_cases {i : Instr} {r : DataReg} (h : commandWrites i r = true) :
    r = .ghy ∨ r = .ctr ∨ r = .dout ∨ r = .tag := by
  revert h
  cases i <;> cases r <;> decide

/-- R32: a completion leaves DOUT and TAG alone where the command does not write them. -/
theorem exec_keeps_unwritten_output {i : Instr} {s t : State} (h : exec i s = .next t) :
    (commandWrites i .dout = false → t.dout = s.dout) ∧ (commandWrites i .tag = false → t.tag = s.tag) := by
  cases i <;> cases h <;> simp [commandWrites]

/-- R17, R56: states that agree on the operands of a command get the same value in each register it writes. -/
theorem exec_results_congr {i : Instr} {s t s' t' : State} (hag : s.AgreeOnOperands i t)
    (hs : exec i s = .next s') (ht : exec i t = .next t') :
    (commandWrites i .ghy = true → s'.ghy = t'.ghy) ∧ (commandWrites i .ctr = true → s'.ctr = t'.ctr) ∧
      (commandWrites i .dout = true → s'.dout = t'.dout) ∧ (commandWrites i .tag = true → s'.tag = t'.tag) := by
  cases i with
  | aesEnc =>
    obtain ⟨hdin, hkey⟩ := hag
    cases (exec_aesEnc s).symm.trans hs
    cases (exec_aesEnc t).symm.trans ht
    simp [commandWrites, hdin, hkey]
  | gmul =>
    obtain ⟨hdin, hhkey⟩ := hag
    cases (exec_gmul s).symm.trans hs
    cases (exec_gmul t).symm.trans ht
    simp [commandWrites, hdin, hhkey]
  | ghashStep =>
    obtain ⟨hghy, hdin, hhkey⟩ := hag
    cases (exec_ghashStep s).symm.trans hs
    cases (exec_ghashStep t).symm.trans ht
    simp [commandWrites, hghy, hdin, hhkey]
  | gctr =>
    obtain ⟨hdin, hkey, hctr⟩ := hag
    cases (exec_gctr s).symm.trans hs
    cases (exec_gctr t).symm.trans ht
    simp [commandWrites, hdin, hkey, hctr]
  | inc32 =>
    have hctr : s.ctr = t.ctr := hag
    cases (exec_inc32 s).symm.trans hs
    cases (exec_inc32 t).symm.trans ht
    simp [commandWrites, hctr]
  | aesGcmEnc =>
    obtain ⟨hkey, hdin, hiv, haad⟩ := hag
    cases (exec_aesGcmEnc s).symm.trans hs
    cases (exec_aesGcmEnc t).symm.trans ht
    simp [commandWrites, hkey, hdin, hiv, haad]

/-- States with the same operand registers agree on the operands of every command. -/
theorem State.SameOperands.agreeOnOperands {s t : State} (h : s.SameOperands t) (i : Instr) :
    t.AgreeOnOperands i s := by
  obtain ⟨hkey, hdin, hiv, haad, hhkey, hghy, hctr⟩ := h
  cases i <;> simp [State.AgreeOnOperands, *]

/-- States with the same data registers complete a command with the same DOUT and TAG. -/
theorem exec_outputs_congr {i : Instr} {s t s' t' : State} (h : s.SameData t) (hs : exec i s = .next s')
    (ht : exec i t = .next t') : t'.dout = s'.dout ∧ t'.tag = s'.tag := by
  obtain ⟨hops, hdout, htag⟩ := h
  obtain ⟨-, -, hwdout, hwtag⟩ := exec_results_congr (hops.agreeOnOperands i) ht hs
  obtain ⟨hsdout, hstag⟩ := exec_keeps_unwritten_output hs
  obtain ⟨htdout, httag⟩ := exec_keeps_unwritten_output ht
  constructor
  · cases hw : commandWrites i .dout with
    | true => exact hwdout hw
    | false => rw [htdout hw, hsdout hw, hdout]
  · cases hw : commandWrites i .tag with
    | true => exact hwtag hw
    | false => rw [httag hw, hstag hw, htag]

/-- Settles O15: a register that a command writes is one of four, and in each the written value is a function of the
operands. -/
theorem resultsDependOnOperandsOnly : Obligations.ResultsDependOnOperandsOnly := by
  intro i s t s' t' hag hs ht r k hw
  obtain ⟨hghy, hctr, hdout, htag⟩ := exec_results_congr hag hs ht
  rcases commandWrites_cases hw with rfl | rfl | rfl | rfl
  · exact congrArg (packWord · k) (hghy hw)
  · exact congrArg (packWord · k) (hctr hw)
  · exact congrArg (packWord · k) (hdout hw)
  · exact congrArg (packWord · k) (htag hw)

end Sys2Proof.Machine
end

section
/-!
Quiet runs: the counters of acceptances and resets never fall, and between two states with the same counters
the host can change neither the command in flight nor an output nor, while a command is in flight, an operand
(spec/10_state.md R52, R53; spec/20_memory.md R75). From these, the outputs of a whole run (R17, R54).
-/

namespace Sys2Proof.Machine

/-! ### The counters -/

/-- A transaction counts at most an acceptance. -/
theorem State.accepted_le_afterTxn (s : State) (x : Txn) : s.accepted ≤ (s.afterTxn x).accepted := by
  rcases s.afterTxn_cases x with h | ⟨off, v, -, -, ⟨-, h⟩ | ⟨-, h⟩ | ⟨-, h⟩ | ⟨r, k, -, h⟩⟩ <;> rw [h]
  · simp
  · simp
  · rcases s.writeCmd_cases v with ⟨-, h⟩ | ⟨-, i, -, h⟩ | ⟨-, -, h⟩ <;> rw [h] <;> simp
  · rcases s.writeData_cases r k v with ⟨-, h⟩ | ⟨-, -, h⟩ | ⟨-, -, h⟩ <;> rw [h] <;> simp

/-- R320: a host move is a transaction, after which a WAIT may stand in the queue again, or it counts a reset. -/
theorem State.hostMove_txn_or_reset (s : State) (e : HostEvent) (rest : List HostEvent) :
    (∃ x p, s.hostMove e rest = { (s.taken rest).runTxn x with pending := p }) ∨
      ((s.hostMove e rest).resets = s.resets + 1 ∧ s.accepted ≤ (s.hostMove e rest).accepted) := by
  rcases s.hostMove_cases e rest with ⟨x, -, h⟩ | ⟨-, -, h⟩ | ⟨-, -, h⟩ | ⟨u, -, h⟩ | ⟨x, -, h⟩ <;> rw [h]
  · exact .inl ⟨x, _, rfl⟩
  · exact .inl ⟨.read statusOffset 4, rest, rfl⟩
  · exact .inl ⟨.read statusOffset 4, .wait :: rest, rfl⟩
  · exact .inr ⟨rfl, le_rfl⟩
  · obtain ⟨-, hresets, -⟩ := (s.taken rest).afterTxn_hostSide x
    exact .inr ⟨congrArg (· + 1) hresets, (s.taken rest).accepted_le_afterTxn x⟩

/-- Log entries 2 and 3: no step lowers the count of acceptances or of resets. -/
theorem step_counters_le {s t : State} (h : step s = .next t) : s.accepted ≤ t.accepted ∧ s.resets ≤ t.resets := by
  rcases step_cases h with ⟨i, -, hx⟩ | ⟨e, rest, -, rfl⟩ | ⟨-, rfl⟩
  · obtain ⟨ghy, ctr, dout, tag, hs⟩ := exec_shape i s
    cases hs.symm.trans hx
    exact ⟨le_rfl, le_rfl⟩
  · rcases s.hostMove_txn_or_reset e rest with ⟨x, p, h⟩ | ⟨hresets, haccepted⟩
    · obtain ⟨-, hresets, -⟩ := (s.taken rest).afterTxn_hostSide x
      rw [h]
      exact ⟨(s.taken rest).accepted_le_afterTxn x, hresets.ge⟩
    · exact ⟨haccepted, by omega⟩
  · exact ⟨le_rfl, le_rfl⟩

theorem run_counters_le {n : Nat} {s t : State} (h : core.run n s = .next t) :
    s.accepted ≤ t.accepted ∧ s.resets ≤ t.resets := by
  induction n generalizing s with
  | zero =>
    cases h
    exact ⟨le_rfl, le_rfl⟩
  | succ n ih =>
    obtain ⟨v, hstep, hrun⟩ := run_succ_cases h
    obtain ⟨hacc, hres⟩ := step_counters_le hstep
    obtain ⟨hacc', hres'⟩ := ih hrun
    exact ⟨hacc.trans hacc', hres.trans hres'⟩

/-- No acceptance and no reset from `s` to `t`: the two counters are the same. -/
def State.SameCounters (s t : State) : Prop := t.accepted = s.accepted ∧ t.resets = s.resets

/-- A run that counts nothing counts nothing in its first step nor in the rest. -/
theorem run_succ_quiet {n : Nat} {s t : State} (h : core.run (n + 1) s = .next t) (hc : s.SameCounters t) :
    ∃ v, step s = .next v ∧ core.run n v = .next t ∧ s.SameCounters v ∧ v.SameCounters t := by
  obtain ⟨v, hstep, hrun⟩ := run_succ_cases h
  obtain ⟨hacc, hres⟩ := step_counters_le hstep
  obtain ⟨hacc', hres'⟩ := run_counters_le hrun
  obtain ⟨hacc'', hres''⟩ := hc
  exact ⟨v, hstep, hrun, ⟨by omega, by omega⟩, ⟨by omega, by omega⟩⟩

/-! ### What the host cannot change -/

/-- The command in flight and the outputs are the same, and so are the operands if a command is in flight. -/
structure State.Undisturbed (s t : State) : Prop where
  busy : t.busy = s.busy
  curOp : t.curOp = s.curOp
  dout : t.dout = s.dout
  tag : t.tag = s.tag
  operands : s.busy = true → s.SameOperands t

theorem State.Undisturbed.refl (s : State) : s.Undisturbed s := by constructor <;> simp [State.SameOperands]

theorem State.undisturbed_raiseCmdError (s : State) (e : CmdError) : s.Undisturbed (s.raiseCmdError e) := by
  constructor <;> simp [State.SameOperands]

/-- R52, R53, R75: a transaction that is no acceptance disturbs nothing: a write to CMD does no more than record an error, and
one to an operand register stores a word only while no command is in flight. -/
theorem State.undisturbed_afterTxn {s : State} {x : Txn} (h : (s.afterTxn x).accepted = s.accepted) :
    s.Undisturbed (s.afterTxn x) := by
  rcases s.afterTxn_cases x with hx | ⟨off, v, -, -, ⟨-, hx⟩ | ⟨-, hx⟩ | ⟨-, hx⟩ | ⟨r, k, -, hx⟩⟩ <;> rw [hx] at h ⊢
  · exact .refl s
  · constructor <;> simp [State.SameOperands]
  · constructor <;> simp [State.SameOperands]
  · rcases s.writeCmd_cases v with ⟨-, hw⟩ | ⟨-, i, -, hw⟩ | ⟨-, -, hw⟩ <;> rw [hw] at h ⊢
    · exact s.undisturbed_raiseCmdError _
    · simp at h
    · constructor <;> simp [State.SameOperands]
  · rcases s.writeData_cases r k v with ⟨-, hw⟩ | ⟨-, -, hw⟩ | ⟨-, hidle, hw⟩ <;> rw [hw]
    · exact .refl s
    · exact s.undisturbed_raiseCmdError _
    · constructor <;> simp [hidle]

theorem State.undisturbed_hostMove {s : State} {e : HostEvent} {rest : List HostEvent}
    (h : s.SameCounters (s.hostMove e rest)) : s.Undisturbed (s.hostMove e rest) := by
  obtain ⟨haccepted, hresets⟩ := h
  rcases s.hostMove_txn_or_reset e rest with ⟨x, p, hx⟩ | ⟨hreset, -⟩
  · rw [hx] at haccepted ⊢
    have hu : (s.taken rest).Undisturbed ((s.taken rest).afterTxn x) := undisturbed_afterTxn haccepted
    exact ⟨hu.busy, hu.curOp, hu.dout, hu.tag, hu.operands⟩
  · omega

/-- R7: a step that is neither an acceptance nor a reset is the completion of the command in flight or disturbs nothing. -/
theorem step_quiet_cases {s t : State} (h : step s = .next t) (hc : s.SameCounters t) :
    (∃ i, s.curOp = some i ∧ exec i s = .next t) ∨ s.Undisturbed t := by
  rcases step_cases h with ⟨i, ⟨-, hop, -⟩, hx⟩ | ⟨e, rest, -, rfl⟩ | ⟨-, rfl⟩
  · exact .inl ⟨i, hop, hx⟩
  · exact .inr (State.undisturbed_hostMove hc)
  · exact .inr (.refl _)

/-! ### Whole runs -/

/-- R54, R75: with no command in flight and none accepted, a run keeps DOUT and TAG. -/
theorem run_idle_keeps_outputs {n : Nat} {s t : State} (hidle : s.curOp = none) (hrun : core.run n s = .next t)
    (hc : s.SameCounters t) : t.dout = s.dout ∧ t.tag = s.tag := by
  induction n generalizing s with
  | zero =>
    cases hrun
    exact ⟨rfl, rfl⟩
  | succ n ih =>
    obtain ⟨v, hstep, hrest, hcv, hct⟩ := run_succ_quiet hrun hc
    rcases step_quiet_cases hstep hcv with ⟨i, hop, -⟩ | hu
    · rw [hidle] at hop
      cases hop
    · obtain ⟨hdout, htag⟩ := ih (hu.curOp.trans hidle) hrest hct
      exact ⟨hdout.trans hu.dout, htag.trans hu.tag⟩

/-- R54: no command is in flight after a completion. -/
theorem exec_leaves_idle {i : Instr} {s t : State} (h : exec i s = .next t) : t.curOp = none := by
  obtain ⟨ghy, ctr, dout, tag, hs⟩ := exec_shape i s
  cases hs.symm.trans h
  rfl

/-- R17, R53, R54: a run through the completion of the command in flight ends with the outputs that its completion gives at
the start of the run. Before the completion the data registers stay, so it writes the same; after it the outputs stay. -/
theorem run_outputs_of_inFlight {n : Nat} {s t u : State} {i : Instr} (hbusy : s.busy = true) (hop : s.curOp = some i)
    (hexec : exec i s = .next u) (hrun : core.run n s = .next t) (hc : s.SameCounters t) (hover : t.busy = false) :
    t.dout = u.dout ∧ t.tag = u.tag := by
  induction n generalizing s u with
  | zero =>
    cases hrun
    rw [hbusy] at hover
    cases hover
  | succ n ih =>
    obtain ⟨v, hstep, hrest, hcv, hct⟩ := run_succ_quiet hrun hc
    rcases step_quiet_cases hstep hcv with ⟨j, hj, hx⟩ | hu
    · cases hop.symm.trans hj
      cases hexec.symm.trans hx
      exact run_idle_keeps_outputs (exec_leaves_idle hexec) hrest hct
    · obtain ⟨ghy, ctr, dout, tag, hv⟩ := exec_shape i v
      obtain ⟨hdout, htag⟩ := ih (hu.busy.trans hbusy) (hu.curOp.trans hop) hv hrest hct
      obtain ⟨hdout', htag'⟩ := exec_outputs_congr ⟨hu.operands hbusy, hu.dout, hu.tag⟩ hexec hv
      exact ⟨hdout.trans hdout', htag.trans htag'⟩

/-- Settles O18, by induction on the steps of the run: a legal state with a command in flight is busy. -/
theorem outputsAreOfAcceptedOperands : Obligations.OutputsAreOfAcceptedOperands := by
  intro n s t u i hlegal hop hexec hrun haccepted hresets hover
  obtain ⟨hbusy, -⟩ := s.legal_iff.1 hlegal
  rw [hop] at hbusy
  exact run_outputs_of_inFlight hbusy hop hexec hrun ⟨haccepted, hresets⟩ hover

end Sys2Proof.Machine
end

section
/-!
The window at BASE (spec/00_scope.md R9; spec/20_memory.md R70).
-/

namespace Sys2Proof.Machine

/-- R70: the address at distance `k` from BASE, inside the window. -/
theorem windowOffset_base_add {k : Nat} (h : k < 256) : windowOffset (Config.base + k) = some (BitVec.ofNat 8 k) := by
  have hin : Config.base ≤ Config.base + k ∧ Config.base + k < Config.base + Config.windowBytes := by
    simp [Config.windowBytes, h]
  rw [windowOffset, if_pos hin, Nat.add_sub_cancel_left]

/-- R70: an address outside the window. -/
theorem windowOffset_outside {addr : Nat} (h : addr < Config.base ∨ Config.base + 256 ≤ addr) :
    windowOffset addr = none := by
  have hout : ¬(Config.base ≤ addr ∧ addr < Config.base + Config.windowBytes) := by
    simp only [Config.windowBytes]
    omega
  rw [windowOffset, if_neg hout]

/-- Settles O40: BASE is a multiple of the window's size, and an offset is its own distance. -/
theorem windowOffsetIsAddressMinusBase : Obligations.WindowOffsetIsAddressMinusBase := by
  refine ⟨Nat.mul_mod_right 256 Config.basePage, fun off => ?_, fun addr h => windowOffset_outside h⟩
  rw [windowOffset_base_add off.isLt, BitVec.ofNat_toNat, BitVec.setWidth_eq]

end Sys2Proof.Machine
end

section
/-!
Command words and the decoder: which words decode to a command (spec/30_encoding.md R100 to R105).
-/

namespace Sys2Proof

/-- R102: the opcode map read backwards. -/
theorem decodeOpcode_eq_command_iff (op : Byte) (i : Instr) : decodeOpcode op = .command i ↔ op = i.opcode := by
  revert op
  cases i <;> decide +kernel

/-- R104, R105: a word decodes to a command exactly when its MBZ field is 0 and its OPCODE is the command's. -/
theorem decode_eq_command_iff (v : Word) (i : Instr) :
    decode v = .command i ↔ mbzField v = 0 ∧ opcodeField v = i.opcode := by
  unfold decode
  split <;> simp_all [decodeOpcode_eq_command_iff]

/-- R100: a word is determined by its two fields. -/
theorem word_eq_of_fields {v w : Word} (hmbz : mbzField v = mbzField w) (hop : opcodeField v = opcodeField w) : v = w := by
  have fields_append (x : Word) : mbzField x ++ opcodeField x = x :=
    (BitVec.extractLsb'_append_extractLsb'_eq_extractLsb' (start₁ := 0) (len₁ := 8) rfl).trans BitVec.extractLsb'_eq_self
  rw [← fields_append v, ← fields_append w, hmbz, hop]

/-- R100 to R102: the fields of a command's word, and the table's reading of it. -/
theorem encodedWord (i : Instr) : Laws.EncodedWord.Statement i := by
  cases i with
  | aesEnc => exact Laws.EncodedWord.aesEnc
  | gmul => exact Laws.EncodedWord.gmul
  | ghashStep => exact Laws.EncodedWord.ghashStep
  | gctr => exact Laws.EncodedWord.gctr
  | inc32 => exact Laws.EncodedWord.inc32
  | aesGcmEnc => exact Laws.EncodedWord.aesGcmEnc

theorem decode_encode (i : Instr) : decode (encode i) = .command i := by
  obtain ⟨-, -, hmbz, hop, -⟩ := encodedWord i
  exact (decode_eq_command_iff _ _).2 ⟨hmbz, hop⟩

/-- R102: the word of a command is the only one that decodes to it. -/
theorem eq_encode_of_decode {v : Word} {i : Instr} (h : decode v = .command i) : v = encode i := by
  obtain ⟨hmbz, hop⟩ := (decode_eq_command_iff v i).1 h
  obtain ⟨-, -, hmbz', hop', -⟩ := encodedWord i
  exact word_eq_of_fields (hmbz.trans hmbz'.symm) (hop.trans hop'.symm)

/-- R104: the opcodes are 0x01 to 0x06. -/
theorem Instr.opcode_range (i : Instr) : 0x01 ≤ i.opcode.toNat ∧ i.opcode.toNat ≤ 0x06 := by
  cases i <;> decide

end Sys2Proof
end

section
/-!
The register map: which offset selects which word of a data register, and what a read there returns
(spec/20_memory.md R71, R72; spec/10_state.md R59).
-/

namespace Sys2Proof.Machine

/-- R71: bits [7:4] of an offset select the data register and bits [3:2] the word; IV has no word 3. The three rows of the
table set apart are the control registers, IV and reserved space. -/
theorem selectReg_data_iff (off : Offset) (r : DataReg) (k : Nat) :
    selectReg off = .data r k ↔
      off.toNat / 16 = r.base.toNat / 16 ∧ off.toNat / 4 % 4 = k ∧ k < r.words := by
  have hrow : (off.extractLsb' 4 4).toNat = off.toNat / 16 := by
    simp [BitVec.extractLsb'_toNat, Nat.shiftRight_eq_div_pow]
    omega
  have hword : (off.extractLsb' 2 2).toNat = off.toNat / 4 % 4 := by
    simp [BitVec.extractLsb'_toNat, Nat.shiftRight_eq_div_pow]
  have hlt : off.toNat / 4 % 4 < 4 := Nat.mod_lt _ (by decide)
  simp only [selectReg, hrow, hword]
  generalize off.toNat / 16 = row, off.toNat / 4 % 4 = word at hlt ⊢
  split
  case h_1 => cases r <;> split <;> simp [DataReg.base]
  case h_4 => cases r <;> split <;> simp [DataReg.base, DataReg.words] <;> omega
  case h_11 => cases r <;> simp_all [DataReg.base]
  all_goals
    cases r <;> simp [DataReg.base, DataReg.words]
    omega

/-- R71: word `k` of a data register stands at its base plus `4k`. -/
theorem selectReg_base_add {r : DataReg} {k : Nat} (h : k < r.words) :
    selectReg (r.base + BitVec.ofNat 8 (4 * k)) = .data r k := by
  revert k
  cases r <;> decide

/-- R71: the offsets of KEY to CTR select a word of a register that the host may write. -/
theorem selectReg_operand {off : Offset}
    (h : 0x10 ≤ off.toNat ∧ off.toNat < 0x3C ∨ 0x40 ≤ off.toNat ∧ off.toNat < 0x80) :
    ∃ r k, selectReg off = .data r k ∧ r.readOnly = false := by
  have operand (r : DataReg) (hro : r.readOnly = false) (hrow : off.toNat / 16 = r.base.toNat / 16)
      (hword : off.toNat / 4 % 4 < r.words) : ∃ r k, selectReg off = .data r k ∧ r.readOnly = false :=
    ⟨r, _, (selectReg_data_iff off r _).2 ⟨hrow, rfl, hword⟩, hro⟩
  have hword : off.toNat / 4 % 4 < 4 := Nat.mod_lt _ (by decide)
  have hrow : off.toNat / 16 = 1 ∨ off.toNat / 16 = 2 ∨ off.toNat / 16 = 3 ∨ off.toNat / 16 = 4 ∨ off.toNat / 16 = 5 ∨
    off.toNat / 16 = 6 ∨ off.toNat / 16 = 7 := by omega
  rcases hrow with h1 | h2 | h3 | h4 | h5 | h6 | h7
  · exact operand .key rfl h1 hword
  · exact operand .din rfl h2 hword
  · exact operand .iv rfl h3 (show off.toNat / 4 % 4 < 3 by omega)
  · exact operand .aad rfl h4 hword
  · exact operand .hkey rfl h5 hword
  · exact operand .ghy rfl h6 hword
  · exact operand .ctr rfl h7 hword

theorem State.busRead_data {s : State} {off : Offset} {r : DataReg} {k : Nat} (h : selectReg off = .data r k) :
    s.busRead off = s.dataWord r k := by
  unfold State.busRead
  rw [h]

/-- R71, R72: what a read at a register's base plus `4k` returns. -/
theorem State.busRead_base_add (s : State) {r : DataReg} {k : Nat} (h : k < r.words) :
    s.busRead (r.base + BitVec.ofNat 8 (4 * k)) = s.dataWord r k :=
  busRead_data (selectReg_base_add h)

/-- Settles O28: the control registers by evaluation, the data registers by the map's base offsets. -/
theorem registerMapReads : Obligations.RegisterMapReads := by
  intro s
  refine ⟨⟨rfl, rfl, rfl, rfl⟩, fun k hk => ⟨?_, ?_, ?_, ?_, ?_, ?_, ?_, ?_⟩, fun k hk => ?_⟩
  · exact s.busRead_base_add (r := .key) hk
  · exact s.busRead_base_add (r := .din) hk
  · exact s.busRead_base_add (r := .aad) hk
  · exact s.busRead_base_add (r := .hkey) hk
  · exact s.busRead_base_add (r := .ghy) hk
  · exact s.busRead_base_add (r := .ctr) hk
  · exact s.busRead_base_add (r := .dout) hk
  · exact s.busRead_base_add (r := .tag) hk
  · exact s.busRead_base_add (r := .iv) hk

theorem packWord_zero (w k : Nat) : packWord (0 : BitVec w) k = 0 := by
  simp [packWord, byteAt]

/-- R59: every word of every data register is 0 after reset. -/
theorem dataWord_reset (r : DataReg) (k : Nat) : State.reset.dataWord r k = 0 := by
  cases r <;> exact packWord_zero _ k

/-- Settles O38: a read at an aligned offset other than ID's selects CTRL, STATUS, CMD, a data register or reserved space. -/
theorem resetLeavesTheTableOfValues : Obligations.ResetLeavesTheTableOfValues := by
  refine ⟨rfl, fun off haligned hid => ?_, ⟨rfl, rfl, rfl, rfl⟩, ⟨rfl, rfl, rfl, rfl⟩, by decide⟩
  obtain ⟨hid_iff, -⟩ := selectReg_control off haligned
  cases hsel : selectReg off with
  | id => exact absurd (hid_iff.1 hsel) hid
  | data r k => rw [State.busRead_data hsel, dataWord_reset]
  | ctrl | status => rw [State.busRead, hsel]; rfl
  | cmd | reserved => rw [State.busRead, hsel]

end Sys2Proof.Machine
end

section
/-!
CTRL and STATUS as words (spec/10_state.md R34 to R36).
-/

namespace Sys2Proof.Machine

/-- R34: the two enables of a write to CTRL read back as bits [1:0] of the word written. -/
theorem State.ctrlWord_writeCtrl (s : State) (v : Word) : (s.writeCtrl v).ctrlWord = (v.extractLsb' 0 2).zeroExtend 32 := by
  have hbits : BitVec.ofBool (v.getLsbD 1) ++ BitVec.ofBool (v.getLsbD 0) = v.extractLsb' 0 2 := by
    ext i hi
    rw [BitVec.getElem_append, BitVec.getElem_extractLsb']
    obtain rfl | rfl : i = 0 ∨ i = 1 := by omega
    · simp
    · simp
  exact congrArg (BitVec.zeroExtend 32) hbits

/-- R36: the fields after a write to STATUS, bit by bit. -/
theorem State.writeStatus_eq (s : State) (v : Word) :
    s.writeStatus v = { s with
      done := s.done && !v.getLsbD 1
      err := s.err && !v.getLsbD 2
      errCode := if v.getLsbD 2 then 0 else s.errCode } := by
  unfold State.writeStatus
  cases v.getLsbD 1 <;> cases v.getLsbD 2 <;> simp

/-- Settles O36: the word is a function of three flags and a four-bit code, so there are 128 words to look at. -/
theorem statusWordLayout : Obligations.StatusWordLayout := by
  intro s
  unfold State.statusWord
  generalize s.busy = busy, s.done = done, s.err = err, s.errCode = code
  revert busy done err code
  decide

end Sys2Proof.Machine
end

section
/-!
What a transaction and a step can do, one constructor per branch of the rules (spec/00_scope.md R7; spec/10_state.md R34 to
R39, R52 to R58; spec/20_memory.md R71, R76; spec/70_reset_and_hazards.md R320), and the legal states that every step keeps.
-/

namespace Sys2Proof.Machine

/-! ### The effect of a transaction -/

/-- The states that a transaction can leave (R34, R36, R52, R53, R75, R76). -/
inductive State.TxnEffect (s : State) : Txn → State → Prop
  /-- A read, a refused access, a write to ID, DOUT, TAG or reserved space. -/
  | nothing (x : Txn) : s.TxnEffect x s
  | wroteCtrl (v : Word) : s.TxnEffect (.write 0x04 4 v) (s.writeCtrl v)
  | wroteStatus (v : Word) : s.TxnEffect (.write 0x08 4 v) (s.writeStatus v)
  | accepted (i : Instr) (idle : s.busy = false) : s.TxnEffect (.write 0x0C 4 (encode i)) (s.accept i)
  | illegalCmd (v : Word) (idle : s.busy = false) :
    s.TxnEffect (.write 0x0C 4 v) ({ s with done := false }.raiseCmdError .illegalCmd)
  /-- A write to CMD or to an operand register while a command is in flight. -/
  | dropped (off : Offset) (v : Word) (e : CmdError) (busy : s.busy = true) :
    s.TxnEffect (.write off 4 v) (s.raiseCmdError e)
  | stored (off : Offset) (v : Word) (r : DataReg) (k : Nat) (idle : s.busy = false) (aligned : off.toNat % 4 = 0)
    (sel : selectReg off = .data r k) : s.TxnEffect (.write off 4 v) (s.setDataWord r k v)

theorem State.afterTxn_effect (s : State) (x : Txn) : s.TxnEffect x (s.afterTxn x) := by
  rcases s.afterTxn_cases x with h | ⟨off, v, rfl, haligned, ⟨rfl, h⟩ | ⟨rfl, h⟩ | ⟨rfl, h⟩ | ⟨r, k, hsel, h⟩⟩ <;> rw [h]
  · exact .nothing x
  · exact .wroteCtrl v
  · exact .wroteStatus v
  · rcases s.writeCmd_cases v with ⟨hbusy, hw⟩ | ⟨hidle, i, hdec, hw⟩ | ⟨hidle, -, hw⟩ <;> rw [hw]
    · exact .dropped _ v _ hbusy
    · cases eq_encode_of_decode hdec
      exact .accepted i hidle
    · exact .illegalCmd v hidle
  · rcases s.writeData_cases r k v with ⟨-, hw⟩ | ⟨-, hbusy, hw⟩ | ⟨-, hidle, hw⟩ <;> rw [hw]
    · exact .nothing _
    · exact .dropped off v _ hbusy
    · exact .stored off v r k hidle haligned hsel

/-- R49, R75: no transaction changes DOUT or TAG. -/
theorem State.TxnEffect.outputs {s t : State} {x : Txn} (h : s.TxnEffect x t) : t.dout = s.dout ∧ t.tag = s.tag := by
  cases h <;> simp

/-- R37: BUSY stays unless a command is accepted. -/
theorem State.TxnEffect.busy {s t : State} {x : Txn} (h : s.TxnEffect x t) :
    t.busy = s.busy ∨ t.busy = true ∧ ∃ i, x = .write 0x0C 4 (encode i) := by
  cases h with
  | accepted i idle => exact .inr ⟨rfl, i, rfl⟩
  | _ => left; simp

/-- R38: DONE stays unless a write to STATUS bit 1, or one to CMD while idle, clears it. -/
theorem State.TxnEffect.done {s t : State} {x : Txn} (h : s.TxnEffect x t) :
    t.done = s.done ∨ t.done = false ∧ ((∃ v, x = .write 0x08 4 v ∧ v.getLsbD 1 = true) ∨
      s.busy = false ∧ ∃ v, x = .write 0x0C 4 v) := by
  cases h with
  | wroteStatus v =>
    cases hbit : v.getLsbD 1 with
    | false => exact .inl (by rw [State.writeStatus_done, hbit]; rfl)
    | true => exact .inr ⟨by rw [State.writeStatus_done, hbit]; rfl, .inl ⟨v, rfl, hbit⟩⟩
  | accepted i idle => exact .inr ⟨rfl, .inr ⟨idle, _, rfl⟩⟩
  | illegalCmd v idle => exact .inr ⟨by simp, .inr ⟨idle, v, rfl⟩⟩
  | _ => left; simp

/-- R39: a recorded error stays unless a write to STATUS bit 2 clears it. -/
theorem State.TxnEffect.error {s t : State} {x : Txn} (h : s.TxnEffect x t) (herr : s.err = true) :
    (t.err = true ∧ t.errCode = s.errCode) ∨
      (t.err = false ∧ t.errCode = 0 ∧ ∃ v, x = .write 0x08 4 v ∧ v.getLsbD 2 = true) := by
  cases h with
  | wroteStatus v =>
    rw [State.writeStatus_err, State.writeStatus_errCode, herr]
    cases hbit : v.getLsbD 2 with
    | false => exact .inl ⟨rfl, rfl⟩
    | true => exact .inr ⟨rfl, rfl, v, rfl, hbit⟩
  | _ => left; simp [herr]

/-- R32: the operand registers that no command writes. -/
def State.SameHostOnly (s t : State) : Prop :=
  t.key = s.key ∧ t.din = s.din ∧ t.iv = s.iv ∧ t.aad = s.aad ∧ t.hkey = s.hkey

/-- R53: these registers stay unless a word of one is stored while idle. -/
theorem State.TxnEffect.hostOnly {s t : State} {x : Txn} (h : s.TxnEffect x t) :
    s.SameHostOnly t ∨ ∃ off v r k, x = .write off 4 v ∧ s.busy = false ∧ off.toNat % 4 = 0 ∧
      selectReg off = .data r k ∧ t = s.setDataWord r k v := by
  cases h with
  | stored off v r k idle aligned sel => exact .inr ⟨off, v, r, k, rfl, idle, aligned, sel, rfl⟩
  | _ => left; simp [State.SameHostOnly]

/-! ### Legal states -/

@[simp] theorem State.legal_taken (s : State) (rest : List HostEvent) : (s.taken rest).legal = s.legal := rfl

@[simp] theorem State.legal_recorded (s : State) (x : Txn) (r : Response) : (s.recorded x r).legal = s.legal := rfl

@[simp] theorem State.legal_setDataWord (s : State) (r : DataReg) (k : Nat) (v : Word) :
    (s.setDataWord r k v).legal = s.legal := by simp [State.legal]

@[simp] theorem State.legal_applyReset (s : State) : s.applyReset.legal = true := rfl

/-- R282: the codes of the command errors. -/
theorem CmdError.code_cases (e : CmdError) : e.code = 1 ∨ e.code = 2 ∨ e.code = 3 := by
  cases e <;> decide

theorem State.legal_raiseCmdError {s : State} (h : s.legal = true) (e : CmdError) : (s.raiseCmdError e).legal = true := by
  cases herr : s.err with
  | true => simpa [State.raiseCmdError, herr] using h
  | false =>
    obtain ⟨hop, hdone, -, -⟩ := s.legal_iff.1 h
    simp only [State.legal_iff, State.raiseCmdError_busy, State.raiseCmdError_curOp, State.raiseCmdError_done,
      State.raiseCmdError_err, State.raiseCmdError_errCode, herr]
    refine ⟨hop, hdone, ?_⟩
    rcases e.code_cases with hc | hc | hc <;> simp [hc]

/-- R58: a legal state stays legal when DONE is cleared. -/
theorem State.legal_clearDone {s : State} (h : s.legal = true) : ({ s with done := false } : State).legal = true := by
  obtain ⟨hop, -, herr, hcode⟩ := s.legal_iff.1 h
  exact (State.legal_iff _).2 ⟨hop, fun _ => rfl, herr, hcode⟩

/-- R58, R39: every transaction keeps a legal state legal. -/
theorem State.TxnEffect.legal {s t : State} {x : Txn} (h : s.TxnEffect x t) (hlegal : s.legal = true) : t.legal = true := by
  obtain ⟨hop, hdone, herr, hcode⟩ := s.legal_iff.1 hlegal
  cases h with
  | nothing => exact hlegal
  | wroteCtrl v => exact hlegal
  | wroteStatus v =>
    rw [State.legal_iff, State.writeStatus_done, State.writeStatus_err, State.writeStatus_errCode]
    refine ⟨hop, fun hbusy => ?_, ?_⟩
    · rw [hdone hbusy, ite_self]
    · cases v.getLsbD 2 with
      | false => exact ⟨herr, hcode⟩
      | true => simp
  | accepted i idle => exact (State.legal_iff _).2 ⟨rfl, fun _ => rfl, herr, hcode⟩
  | illegalCmd v idle => exact State.legal_raiseCmdError (State.legal_clearDone hlegal) _
  | dropped off v e busy => exact State.legal_raiseCmdError hlegal e
  | stored off v r k idle aligned sel => rw [State.legal_setDataWord, hlegal]

/-! ### The effect of a step -/

/-- What a step can do (R7): complete the command in flight, take a reset event, answer the host's transaction, or leave all
but the host's side of the state alone (a turn of WAIT, or nobody's move). -/
inductive State.StepEffect (s t : State) : Prop
  | completed (i : Instr) (turn : s.EngineTurn i) (hexec : exec i s = .next t)
  | reset (u : Option Txn) (rest : List HostEvent) (turn : s.HostTurn (.reset u) rest) (v : State) (ht : t = v.applyReset)
  | answered (x : Txn) (rest : List HostEvent) (turn : s.HostTurn (.txn x) rest) (v : State) (r : Response)
    (effect : (s.taken rest).TxnEffect x v) (ht : t = v.recorded x r)
  | quiet (p : List HostEvent) (tr : List BusRecord) (l : Nat)
    (ht : t = { s with pending := p, transcript := tr, lag := l })

theorem step_effect {s t : State} (h : step s = .next t) : s.StepEffect t := by
  rcases step_cases h with ⟨i, hturn, hexec⟩ | ⟨e, rest, hturn, rfl⟩ | ⟨-, rfl⟩
  · exact .completed i hturn hexec
  · rcases s.hostMove_cases e rest with ⟨x, rfl, hm⟩ | ⟨rfl, -, hm⟩ | ⟨rfl, -, hm⟩ | ⟨u, rfl, hm⟩ | ⟨x, rfl, hm⟩ <;> rw [hm]
    · exact .answered x rest hturn _ _ ((s.taken rest).afterTxn_effect x) ((s.taken rest).runTxn_eq_recorded x)
    · exact .quiet _ _ _ rfl
    · exact .quiet _ _ _ rfl
    · exact .reset u rest hturn _ rfl
    · exact .reset (some x) rest hturn _ rfl
  · exact .quiet _ _ _ rfl

/-- R58: a step is made from legal states only. -/
theorem legal_of_step {s t : State} (h : step s = .next t) : s.legal = true := by
  rcases step_cases h with ⟨i, ⟨hlegal, -⟩, -⟩ | ⟨e, rest, ⟨hlegal, -⟩, -⟩ | ⟨⟨hlegal, -⟩, -⟩ <;> exact hlegal

/-- R54: the protocol's fields after a completion. -/
theorem exec_flags {i : Instr} {s t : State} (h : exec i s = .next t) :
    t.busy = false ∧ t.done = true ∧ t.curOp = none ∧ t.err = s.err ∧ t.errCode = s.errCode := by
  obtain ⟨ghy, ctr, dout, tag, hs⟩ := exec_shape i s
  cases hs.symm.trans h
  exact ⟨rfl, rfl, rfl, rfl, rfl⟩

/-- R58, R39: every step keeps the state legal. -/
theorem step_legal {s t : State} (h : step s = .next t) : t.legal = true := by
  have hlegal := legal_of_step h
  cases step_effect h with
  | completed i turn hexec =>
    obtain ⟨-, -, herr, hcode⟩ := s.legal_iff.1 hlegal
    obtain ⟨hbusy, -, hop, herr', hcode'⟩ := exec_flags hexec
    rw [State.legal_iff, hbusy, hop, herr', hcode']
    exact ⟨rfl, nofun, herr, hcode⟩
  | reset u rest turn v ht => rw [ht, State.legal_applyReset]
  | answered x rest turn v r effect ht => rw [ht, State.legal_recorded, effect.legal hlegal]
  | quiet p tr l ht => rw [ht]; exact hlegal

/-- R58 with R39's bound, in the form of the statements: BUSY = 1 exactly when CUR_OP is not none. -/
theorem State.legal_iff_invariants (s : State) :
    s.legal = true ↔ (s.busy = true → s.done = false) ∧ (s.err = false ↔ s.errCode = 0) ∧
      (s.busy = true ↔ s.curOp ≠ none) ∧ s.errCode.toNat ≤ 3 := by
  have hop : s.busy = s.curOp.isSome ↔ (s.busy = true ↔ s.curOp ≠ none) := by
    rw [Bool.eq_iff_iff, Option.isSome_iff_ne_none]
  rw [State.legal_iff, hop]
  tauto

/-- Settles O16: the invariants are legality, which every step keeps. -/
theorem stepKeepsProtocolInvariants : Obligations.StepKeepsProtocolInvariants :=
  fun _ t _ hstep => t.legal_iff_invariants.1 (step_legal hstep)

end Sys2Proof.Machine
end

section
/-!
Steps as whole next states: the completion of the command in flight, a word write of the host, a reset event
(spec/10_state.md R34, R36, R52 to R54; spec/20_memory.md R84; spec/70_reset_and_hazards.md R320).
-/

namespace Sys2Proof.Machine

/-! ### Completions -/

/-- R84: the step of a state in which the completion of `i` is next. -/
theorem step_engine {s : State} {i : Instr} (h : s.EngineTurn i) : step s = exec i s := by
  unfold step
  rw [(s.nextMove_complete_iff i).2 h]

/-- Settles O4: `step_engine`, which adds nothing around `exec`. -/
theorem stepRunsCommandInFlight : Obligations.StepRunsCommandInFlight := fun _ _ => step_engine

/-- Log entry 5: placing a command's word is its acceptance, with the completion next. -/
theorem State.withFetchWord_encode (s : State) (i : Instr) :
    s.withFetchWord 32 (encode i).toNat =
      { s with done := false, busy := true, curOp := some i, lag := 0, accepted := s.accepted + 1 } := by
  obtain ⟨-, -, -, -, htable⟩ := encodedWord i
  rw [State.withFetchWord, State.placeCommand, htable]
  rfl

/-- Settles O7: the placed state is legal, with the command in flight and no lag, so its completion is next. -/
theorem placedCommandRunsNext : Obligations.PlacedCommandRunsNext := by
  intro s i hlegal
  obtain ⟨-, -, herr, hcode⟩ := s.legal_iff.1 hlegal
  refine ⟨step_engine ?_, s.withFetchWord_encode i⟩
  rw [s.withFetchWord_encode i]
  exact ⟨(State.legal_iff _).2 ⟨rfl, fun _ => rfl, herr, hcode⟩, rfl, .inl rfl⟩

/-- R32: a completion leaves GHY and CTR alone where the command does not write them. -/
theorem exec_keeps_unwritten_accumulator {i : Instr} {s t : State} (h : exec i s = .next t) :
    (commandWrites i .ghy = false → t.ghy = s.ghy) ∧ (commandWrites i .ctr = false → t.ctr = s.ctr) := by
  cases i <;> cases h <;> simp [commandWrites]

/-- R32: no command writes the operand registers other than GHY and CTR. -/
theorem exec_hostOnly {i : Instr} {s t : State} (h : exec i s = .next t) : s.SameHostOnly t := by
  obtain ⟨ghy, ctr, dout, tag, hs⟩ := exec_shape i s
  cases hs.symm.trans h
  exact ⟨rfl, rfl, rfl, rfl, rfl⟩

/-- R32, R102: a completion leaves every word of a register that the command does not write. -/
theorem exec_dataWord {i : Instr} {s t : State} (h : exec i s = .next t) {r : DataReg} (k : Nat)
    (hw : commandWrites i r = false) : t.dataWord r k = s.dataWord r k := by
  obtain ⟨hkey, hdin, hiv, haad, hhkey⟩ := exec_hostOnly h
  obtain ⟨hghy, hctr⟩ := exec_keeps_unwritten_accumulator h
  obtain ⟨hdout, htag⟩ := exec_keeps_unwritten_output h
  cases r with
  | key => exact congrArg (packWord · k) hkey
  | din => exact congrArg (packWord · k) hdin
  | iv => exact congrArg (packWord · k) hiv
  | aad => exact congrArg (packWord · k) haad
  | hkey => exact congrArg (packWord · k) hhkey
  | ghy => exact congrArg (packWord · k) (hghy hw)
  | ctr => exact congrArg (packWord · k) (hctr hw)
  | dout => exact congrArg (packWord · k) (hdout hw)
  | tag => exact congrArg (packWord · k) (htag hw)

/-- R54: a completion leaves CTRL and the host's side alone. -/
theorem exec_frame {i : Instr} {s t : State} (h : exec i s = .next t) :
    (t.ieDone = s.ieDone ∧ t.ieErr = s.ieErr ∧ t.err = s.err ∧ t.errCode = s.errCode) ∧
      (t.pending = s.pending ∧ t.transcript = s.transcript ∧ t.accepted = s.accepted ∧ t.resets = s.resets ∧
        t.run = s.run) := by
  obtain ⟨ghy, ctr, dout, tag, hs⟩ := exec_shape i s
  cases hs.symm.trans h
  exact ⟨⟨rfl, rfl, rfl, rfl⟩, rfl, rfl, rfl, rfl, rfl⟩

/-- Settles O14: by what an offset selects; CTRL is its two bits, and a data word belongs to an unwritten register. -/
theorem completionFrame : Obligations.CompletionFrame := by
  intro i s t h
  obtain ⟨hctrl, hhost⟩ := exec_frame h
  refine ⟨fun off hstatus hdata => ?_, hctrl, hhost⟩
  obtain ⟨hdone, herr, -, -⟩ := hctrl
  unfold State.busRead
  cases hsel : selectReg off with
  | status => exact absurd hsel hstatus
  | data r k => exact exec_dataWord h k (hdata r k hsel)
  | ctrl => simp only [State.ctrlWord, hdone, herr]
  | id | cmd | reserved => rfl

/-! ### GHASH_STEP -/

/-- R203: with no bit set in the multiplier nothing is added. -/
theorem gmul_zero_left (y : Stream16) : gmul 0 y = 0 := by
  have hloop (n i : Nat) (z a : Stream16) : gmulLoop 0#128 n i z a = z := by
    induction n generalizing i z a with
    | zero => rfl
    | succ n ih => simp [gmulLoop, ih, bitAt, streamToBits]
  unfold gmul
  exact hloop 128 0 zeroBlock y

/-- R203: the doublings of zero are zero, so only zeros are added. -/
theorem gmul_zero_right (x : Stream16) : gmul x 0 = 0 := by
  have hloop (n i : Nat) : gmulLoop x n i 0 0 = 0 := by
    induction n generalizing i with
    | zero => rfl
    | succ n ih => simpa [gmulLoop, streamXor, mulx_zero] using ih (i + 1)
  unfold gmul
  exact hloop 128 0

/-- Settles O10: equal blocks cancel, and zero on either side multiplies to zero. -/
theorem ghashStepCompletes : Obligations.GhashStepCompletes := by
  refine ⟨by decide, exec_ghashStep, fun y x h hzero => ?_, by decide +kernel, by decide +kernel⟩
  rcases hzero with rfl | rfl
  · rw [streamXor, BitVec.xor_self]
    exact gmul_zero_left h
  · exact gmul_zero_right _

/-! ### Word writes -/

/-- R70, R84: a word write at an aligned offset as the next move. -/
theorem step_write {s : State} {off : Offset} {v : Word} {rest : List HostEvent}
    (hturn : s.HostTurn (.txn (.write off 4 v)) rest) (haligned : off.toNat % 4 = 0) :
    step s = .next (((s.taken rest).busWrite off v).recorded (.write off 4 v) .ok) := by
  have hword : wordAccess off 4 = true := by simp [wordAccess, haligned]
  have hm : s.hostMove (.txn (.write off 4 v)) rest = (s.taken rest).runTxn (.write off 4 v) := rfl
  rw [step_host hturn, hm, State.runTxn_eq_recorded, State.afterTxn, State.response, if_pos hword, if_pos hword]

theorem step_writeCtrl {s : State} {v : Word} {rest : List HostEvent} (h : s.HostTurn (.txn (.write 0x04 4 v)) rest) :
    step s = .next (((s.taken rest).writeCtrl v).recorded (.write 0x04 4 v) .ok) :=
  step_write h rfl

theorem step_writeStatus {s : State} {v : Word} {rest : List HostEvent} (h : s.HostTurn (.txn (.write 0x08 4 v)) rest) :
    step s = .next (((s.taken rest).writeStatus v).recorded (.write 0x08 4 v) .ok) :=
  step_write h rfl

theorem step_writeCmd {s : State} {v : Word} {rest : List HostEvent} (h : s.HostTurn (.txn (.write 0x0C 4 v)) rest) :
    step s = .next (((s.taken rest).writeCmd v).recorded (.write 0x0C 4 v) .ok) :=
  step_write h rfl

/-- R52: while a command is in flight a write to CMD is not decoded. -/
theorem State.writeCmd_busy {s : State} (h : s.busy = true) (v : Word) : s.writeCmd v = s.raiseCmdError .cmdWhileBusy := by
  rw [State.writeCmd, if_pos h]

/-- R52: while no command is in flight a command's word is accepted. -/
theorem State.writeCmd_accept {s : State} {v : Word} {i : Instr} (hidle : s.busy = false) (h : decode v = .command i) :
    s.writeCmd v = s.accept i := by
  rw [State.writeCmd, hidle, h]
  rfl

/-- R52, R104: while no command is in flight a word that decodes to none clears DONE and records ILLEGAL_CMD. -/
theorem State.writeCmd_illegal {s : State} {v : Word} (hidle : s.busy = false) (h : ∀ i, decode v ≠ .command i) :
    s.writeCmd v = { s with done := false }.raiseCmdError .illegalCmd := by
  rcases s.writeCmd_cases v with ⟨hbusy, -⟩ | ⟨-, i, hdec, -⟩ | ⟨-, -, hw⟩
  · rw [hidle] at hbusy
    cases hbusy
  · exact absurd hdec (h i)
  · exact hw

/-- Settles O5: the three branches of a write to CMD, told apart by BUSY and by the word's two fields. -/
theorem commandWriteAcceptsOrRecordsError : Obligations.CommandWriteAcceptsOrRecordsError := by
  intro s v rest hturn
  refine ⟨fun hbusy => ?_, fun hidle hillegal => ?_, fun hidle i hmbz hop => ?_⟩
  · rw [step_writeCmd hturn, State.writeCmd_busy (s := s.taken rest) hbusy, State.raiseCmdError_eq]
    rfl
  · have hnone (i : Instr) : decode v ≠ .command i := by
      intro hdec
      obtain ⟨hmbz, hop⟩ := (decode_eq_command_iff v i).1 hdec
      have hrange := i.opcode_range
      rw [← hop] at hrange
      exact hillegal ⟨hmbz, hrange⟩
    rw [step_writeCmd hturn, State.writeCmd_illegal (s := s.taken rest) hidle hnone, State.raiseCmdError_eq]
    rfl
  · have hdec : decode v = .command i := (decode_eq_command_iff v i).2 ⟨hmbz, hop⟩
    rw [step_writeCmd hturn, State.writeCmd_accept (s := s.taken rest) hidle hdec]
    exact ⟨_, _, rfl⟩

/-- R53: a write to a register that the host may write, while a command is in flight. -/
theorem State.busWrite_busy {s : State} {off : Offset} {r : DataReg} {k : Nat} (hbusy : s.busy = true)
    (hsel : selectReg off = .data r k) (hro : r.readOnly = false) (v : Word) :
    s.busWrite off v = s.raiseCmdError .writeWhileBusy := by
  simp [State.busWrite, hsel, State.writeData, hro, hbusy]

/-- Settles O33: every offset of the two ranges selects a register that the host may write, so the write is dropped. -/
theorem busyOperandWriteIsDropped : Obligations.BusyOperandWriteIsDropped := by
  intro s off v rest hbusy haligned hturn
  refine ⟨fun hrange => ?_, ?_, ?_⟩
  · obtain ⟨r, k, hsel, hro⟩ := selectReg_operand hrange
    rw [step_write hturn haligned, State.busWrite_busy (s := s.taken rest) hbusy hsel hro, State.raiseCmdError_eq]
    rfl
  · rintro rfl
    exact step_writeCtrl hturn
  · rintro rfl
    exact step_writeStatus hturn

/-- Settles O34: a CTRL write is the whole step, and the two bits it stores read back. -/
theorem ctrlHoldsTwoEnableBits : Obligations.CtrlHoldsTwoEnableBits := by
  refine ⟨fun s v rest hturn => step_writeCtrl hturn, State.ctrlWord_writeCtrl, fun s => ⟨?_, ?_⟩, by decide⟩
  · intro henable hdone
    simp [State.irq, henable, hdone]
  · intro henable herr
    simp [State.irq, henable, herr]

/-- Settles O35: a STATUS write is the whole step, with `writeStatus_eq` for its effect bit by bit. -/
theorem statusIsWriteOneToClear : Obligations.StatusIsWriteOneToClear := by
  intro s v rest hturn
  rw [step_writeStatus hturn, State.writeStatus_eq]
  rfl

/-! ### Reset events -/

/-- R320: the state after a reset event. -/
theorem step_reset {s : State} {u : Option Txn} {rest : List HostEvent} (h : s.HostTurn (.reset u) rest) :
    step s = .next ((s.taken rest).resetEvent u) := step_host h

/-- R320, D36: the free value of a reset event that finds a transaction under way. -/
theorem State.resetEvent_some (s : State) (x : Txn) :
    s.resetEvent (some x) = if Config.txnBeforeReset s x then (s.runTxn x).applyReset else s.applyReset := rfl

/-- R70: taking the host's event does not change the response to it. -/
theorem State.response_taken (s : State) (rest : List HostEvent) (x : Txn) : (s.taken rest).response x = s.response x := by
  cases x <;> rfl

/-- R320: the state after a reset that a transaction precedes: its response is all that is left of it. -/
theorem State.applyReset_runTxn (s : State) (rest : List HostEvent) (x : Txn) :
    ((s.taken rest).runTxn x).applyReset = { State.reset with
      pending := rest, transcript := ⟨x, s.response x⟩ :: s.transcript
      accepted := ((s.taken rest).afterTxn x).accepted, resets := s.resets + 1, run := s.run } := by
  obtain ⟨hpending, hresets, hrun⟩ := (s.taken rest).afterTxn_hostSide x
  simp only [State.applyReset, State.runTxn, hpending, hresets, hrun, s.response_taken rest x]
  rfl

/-- Settles O39: the free value says whether the transaction under way takes effect. -/
theorem resetEventDiscardsEverything : Obligations.ResetEventDiscardsEverything := by
  refine ⟨fun s rest hturn => step_reset hturn, fun s x rest hturn => ⟨_, step_reset hturn, ?_⟩⟩
  cases hfree : Config.txnBeforeReset (s.taken rest) x with
  | true =>
    rw [State.resetEvent_some, if_pos hfree]
    exact ⟨rfl, .inr ⟨_, s.applyReset_runTxn rest x⟩⟩
  | false =>
    rw [State.resetEvent_some, hfree]
    exact ⟨rfl, .inl rfl⟩

end Sys2Proof.Machine
end

section
/-!
What changes a flag or a register, told by the kinds of step (spec/10_state.md R32, R37 to R39, R49, R53, R55;
spec/20_memory.md R75), and the data registers over a whole run with a command in flight.
-/

namespace Sys2Proof.Machine

/-! ### The flags -/

/-- R54: the protocol's fields after the step that completes a command. -/
theorem step_engine_flags {s t : State} {i : Instr} (h : step s = .next t) (hturn : s.EngineTurn i) :
    t.busy = false ∧ t.done = true ∧ t.curOp = none ∧ t.err = s.err ∧ t.errCode = s.errCode :=
  exec_flags ((step_engine hturn).symm.trans h)

/-- R320: a reset event leaves a state that a reset of the engine left, whether or not a transaction took effect. -/
theorem step_reset_eq {s t : State} {u : Option Txn} {rest : List HostEvent} (h : step s = .next t)
    (hturn : s.HostTurn (.reset u) rest) : ∃ v : State, t = v.applyReset := by
  cases (step_reset hturn).symm.trans h
  cases u with
  | none => exact ⟨_, rfl⟩
  | some x =>
    rw [State.resetEvent_some]
    split
    · exact ⟨_, rfl⟩
    · exact ⟨_, rfl⟩

/-- R52: a command's word written while idle. -/
theorem step_accept {s : State} {i : Instr} {rest : List HostEvent} (hidle : s.busy = false)
    (h : s.HostTurn (.txn (.write 0x0C 4 (encode i))) rest) :
    step s = .next (((s.taken rest).accept i).recorded (.write 0x0C 4 (encode i)) .ok) := by
  rw [step_writeCmd h, State.writeCmd_accept (s := s.taken rest) hidle (decode_encode i)]

/-- R52: every write to CMD while idle clears DONE. -/
theorem State.writeCmd_done {s : State} (hidle : s.busy = false) (v : Word) : (s.writeCmd v).done = false := by
  rcases s.writeCmd_cases v with ⟨hbusy, -⟩ | ⟨-, i, -, hw⟩ | ⟨-, -, hw⟩
  · rw [hidle] at hbusy
    cases hbusy
  · rw [hw, State.accept_done]
  · rw [hw, State.raiseCmdError_done]

/-- R37: what sets BUSY. -/
theorem step_sets_busy {s t : State} (h : step s = .next t) (hidle : s.busy = false) (hbusy : t.busy = true) :
    ∃ i rest, s.HostTurn (.txn (.write 0x0C 4 (encode i))) rest := by
  cases step_effect h with
  | completed i turn hexec => simp [exec_flags hexec] at hbusy
  | reset u rest turn v ht => simp [ht] at hbusy
  | answered x rest turn v r effect ht =>
    rcases effect.busy with hkeep | ⟨-, i, rfl⟩
    · simp [ht, hkeep, hidle] at hbusy
    · exact ⟨i, rest, turn⟩
  | quiet p tr l ht => simp [ht, hidle] at hbusy

/-- R37: what clears BUSY. -/
theorem step_clears_busy {s t : State} (h : step s = .next t) (hbusy : s.busy = true) (hidle : t.busy = false) :
    (∃ i, s.EngineTurn i) ∨ ∃ u rest, s.HostTurn (.reset u) rest := by
  cases step_effect h with
  | completed i turn hexec => exact .inl ⟨i, turn⟩
  | reset u rest turn v ht => exact .inr ⟨u, rest, turn⟩
  | answered x rest turn v r effect ht =>
    rcases effect.busy with hkeep | ⟨hset, -⟩
    · simp [ht, hkeep, hbusy] at hidle
    · simp [ht, hset] at hidle
  | quiet p tr l ht => simp [ht, hbusy] at hidle

/-- Settles O19: BUSY = 1 with a command in flight is part of legality, which the step keeps. -/
theorem busySetByAcceptanceClearedByCompletion : Obligations.BusySetByAcceptanceClearedByCompletion := by
  intro s t hstep
  obtain ⟨-, -, hop, -⟩ := t.legal_iff_invariants.1 (step_legal hstep)
  refine ⟨step_sets_busy hstep, fun i rest hidle hturn => ?_, step_clears_busy hstep, fun i hturn => ?_, hop⟩
  · cases (step_accept hidle hturn).symm.trans hstep
    rfl
  · exact (step_engine_flags hstep hturn).1

/-- R38: what sets DONE. -/
theorem step_sets_done {s t : State} (h : step s = .next t) (hclear : s.done = false) (hset : t.done = true) :
    ∃ i, s.EngineTurn i := by
  cases step_effect h with
  | completed i turn hexec => exact ⟨i, turn⟩
  | reset u rest turn v ht => simp [ht] at hset
  | answered x rest turn v r effect ht =>
    rcases effect.done with hkeep | ⟨hcleared, -⟩
    · simp [ht, hkeep, hclear] at hset
    · simp [ht, hcleared] at hset
  | quiet p tr l ht => simp [ht, hclear] at hset

/-- R38: what clears DONE. -/
theorem step_clears_done {s t : State} (h : step s = .next t) (hset : s.done = true) (hclear : t.done = false) :
    (∃ v rest, s.HostTurn (.txn (.write 0x08 4 v)) rest ∧ v.getLsbD 1 = true) ∨
      (∃ u rest, s.HostTurn (.reset u) rest) ∨
      (s.busy = false ∧ ∃ v rest, s.HostTurn (.txn (.write 0x0C 4 v)) rest) := by
  cases step_effect h with
  | completed i turn hexec => simp [exec_flags hexec] at hclear
  | reset u rest turn v ht => exact .inr (.inl ⟨u, rest, turn⟩)
  | answered x rest turn v r effect ht =>
    rcases effect.done with hkeep | ⟨-, ⟨w, rfl, hbit⟩ | ⟨hidle, w, rfl⟩⟩
    · simp [ht, hkeep, hset] at hclear
    · exact .inl ⟨w, rest, turn, hbit⟩
    · exact .inr (.inr ⟨hidle, w, rest, turn⟩)
  | quiet p tr l ht => simp [ht, hset] at hclear

/-- Settles O20: each of the three clearing moves is the step's only outcome. -/
theorem doneSetByCompletionOnly : Obligations.DoneSetByCompletionOnly := by
  intro s t hstep
  refine ⟨step_sets_done hstep, fun i hturn => ?_, step_clears_done hstep, fun v rest hturn hbit => ?_,
    fun u rest hturn => ?_, fun v rest hidle hturn => ?_⟩
  · obtain ⟨-, hdone, -⟩ := step_engine_flags hstep hturn
    exact hdone
  · cases (step_writeStatus hturn).symm.trans hstep
    rw [State.recorded_done, State.writeStatus_done, if_pos hbit]
  · obtain ⟨v, rfl⟩ := step_reset_eq hstep hturn
    rfl
  · cases (step_writeCmd hturn).symm.trans hstep
    exact State.writeCmd_done (s := s.taken rest) hidle v

/-- R39: a recorded error is kept, or cleared together with its code by W1C or reset. -/
theorem step_error {s t : State} (h : step s = .next t) (herr : s.err = true) :
    (t.err = true ∧ t.errCode = s.errCode) ∨
      (t.err = false ∧ t.errCode = 0 ∧
        ((∃ v rest, s.HostTurn (.txn (.write 0x08 4 v)) rest ∧ v.getLsbD 2 = true) ∨
          ∃ u rest, s.HostTurn (.reset u) rest)) := by
  cases step_effect h with
  | completed i turn hexec =>
    obtain ⟨-, -, -, herr', hcode⟩ := exec_flags hexec
    exact .inl ⟨herr'.trans herr, hcode⟩
  | reset u rest turn v ht =>
    rw [ht]
    exact .inr ⟨rfl, rfl, .inr ⟨u, rest, turn⟩⟩
  | answered x rest turn v r effect ht =>
    rw [ht]
    rcases effect.error herr with hkeep | ⟨hclear, hcode, w, rfl, hbit⟩
    · exact .inl hkeep
    · exact .inr ⟨hclear, hcode, .inl ⟨w, rest, turn, hbit⟩⟩
  | quiet p tr l ht =>
    rw [ht]
    exact .inl ⟨herr, rfl⟩

/-- Settles O21: a step keeps a recorded error or clears it (`step_error`), and a completion keeps it either way. -/
theorem firstErrorIsKept : Obligations.FirstErrorIsKept := by
  refine ⟨fun s e => ?_, CmdError.code_cases, fun s t => step_error, fun s t i hstep hturn => ?_, fun s i => ⟨rfl, rfl⟩⟩
  · unfold State.raiseCmdError
    cases s.err with
    | false => rfl
    | true => rfl
  · obtain ⟨-, -, -, herr⟩ := step_engine_flags hstep hturn
    exact herr

/-! ### The data registers -/

/-- Settles O22: the two other kinds of step leave both registers. -/
theorem outputsChangeByCompletionOnly : Obligations.OutputsChangeByCompletionOnly := by
  intro s t hstep hchange
  cases step_effect hstep with
  | completed i turn hexec => exact .inl ⟨i, turn⟩
  | reset u rest turn v ht => exact .inr ⟨u, rest, turn⟩
  | answered x rest turn v r effect ht =>
    obtain ⟨hdout, htag⟩ := effect.outputs
    simp [ht, hdout, htag] at hchange
  | quiet p tr l ht => simp [ht] at hchange

/-- R32, R53: without a reset, KEY, DIN, IV, AAD and HKEY stay, or a word of one register is stored while idle and of
these registers only that one can change. -/
theorem step_hostOnly {s t : State} (h : step s = .next t) (hreset : ∀ u rest, ¬ s.HostTurn (.reset u) rest) :
    s.SameHostOnly t ∨ s.busy = false ∧ ∃ off v rest r k, s.HostTurn (.txn (.write off 4 v)) rest ∧
      off.toNat % 4 = 0 ∧ selectReg off = .data r k ∧
      (t.key ≠ s.key → r = .key) ∧ (t.din ≠ s.din → r = .din) ∧ (t.iv ≠ s.iv → r = .iv) ∧ (t.aad ≠ s.aad → r = .aad) ∧
      (t.hkey ≠ s.hkey → r = .hkey) := by
  cases step_effect h with
  | completed i turn hexec => exact .inl (exec_hostOnly hexec)
  | reset u rest turn v ht => exact absurd turn (hreset u rest)
  | answered x rest turn v r effect ht =>
    rw [ht]
    rcases effect.hostOnly with hsame | ⟨off, w, reg, k, rfl, hidle, haligned, hsel, rfl⟩
    · exact .inl hsame
    · refine .inr ⟨hidle, off, w, rest, reg, k, turn, haligned, hsel, ?_⟩
      cases reg <;> simp
  | quiet p tr l ht => exact .inl (ht ▸ ⟨rfl, rfl, rfl, rfl, rfl⟩)

/-- Settles O23: the row of the offset is the row of the register that changed, and offset 0x3C is no word of IV. -/
theorem operandsChangeByIdleHostWriteOnly : Obligations.OperandsChangeByIdleHostWriteOnly := by
  intro s t hstep hreset
  rcases step_hostOnly hstep hreset with ⟨hkey, hdin, hiv, haad, hhkey⟩ |
    ⟨hidle, off, v, rest, r, k, turn, haligned, hsel, hkey, hdin, hiv, haad, hhkey⟩
  · exact ⟨absurd hkey, absurd hdin, absurd hiv, absurd haad, absurd hhkey⟩
  · obtain ⟨hrow, hword, hk⟩ := (selectReg_data_iff off r k).1 hsel
    refine ⟨fun h => ⟨hidle, off, v, rest, turn, haligned, ?_⟩, fun h => ⟨hidle, off, v, rest, turn, haligned, ?_⟩,
      fun h => ⟨hidle, off, v, rest, turn, haligned, ?_, ?_⟩, fun h => ⟨hidle, off, v, rest, turn, haligned, ?_⟩,
      fun h => ⟨hidle, off, v, rest, turn, haligned, ?_⟩⟩
    · rw [hrow, hkey h]; rfl
    · rw [hrow, hdin h]; rfl
    · rw [hrow, hiv h]; rfl
    · rintro rfl
      cases hiv h
      cases hsel
    · rw [hrow, haad h]; rfl
    · rw [hrow, hhkey h]; rfl

/-! ### The data registers over a run -/

/-- R37: with no command in flight and none accepted, a run stays idle. -/
theorem run_idle_stays_idle {n : Nat} {s t : State} (hidle : s.busy = false) (hop : s.curOp = none)
    (hrun : core.run n s = .next t) (hc : s.SameCounters t) : t.busy = false := by
  induction n generalizing s with
  | zero =>
    cases hrun
    exact hidle
  | succ n ih =>
    obtain ⟨v, hstep, hrest, hcv, hct⟩ := run_succ_quiet hrun hc
    rcases step_quiet_cases hstep hcv with ⟨i, hi, -⟩ | hu
    · rw [hop] at hi
      cases hi
    · exact ih (hu.busy.trans hidle) (hu.curOp.trans hop) hrest hct

theorem State.SameData.trans {s v t : State} (hsv : s.SameData v) (hvt : v.SameData t) : s.SameData t := by
  obtain ⟨⟨hkey, hdin, hiv, haad, hhkey, hghy, hctr⟩, hdout, htag⟩ := hvt
  rw [State.SameData, State.SameOperands, hkey, hdin, hiv, haad, hhkey, hghy, hctr, hdout, htag]
  exact hsv

/-- R53, R55: a run through which the same command stays in flight keeps the data registers: it has no completion, since after
one the run would stay idle. -/
theorem run_busy_keeps_data {n : Nat} {s t : State} (hbusy : s.busy = true) (hrun : core.run n s = .next t)
    (hc : s.SameCounters t) (hbusy' : t.busy = true) : s.SameData t ∧ t.curOp = s.curOp := by
  induction n generalizing s with
  | zero =>
    cases hrun
    exact ⟨⟨⟨rfl, rfl, rfl, rfl, rfl, rfl, rfl⟩, rfl, rfl⟩, rfl⟩
  | succ n ih =>
    obtain ⟨v, hstep, hrest, hcv, hct⟩ := run_succ_quiet hrun hc
    rcases step_quiet_cases hstep hcv with ⟨i, -, hexec⟩ | hu
    · obtain ⟨hidle, -, hop, -⟩ := exec_flags hexec
      rw [run_idle_stays_idle hidle hop hrest hct] at hbusy'
      cases hbusy'
    · obtain ⟨hdata, hop⟩ := ih (hu.busy.trans hbusy) hrest hct
      have hsv : s.SameData v := ⟨hu.operands hbusy, hu.dout, hu.tag⟩
      exact ⟨hsv.trans hdata, hop.trans hu.curOp⟩

/-- Settles O17: no reset and no later acceptance is the two counters' staying the same. -/
theorem registersStableWhileInFlight : Obligations.RegistersStableWhileInFlight :=
  fun _ _ _ _ hbusy hrun haccepted hresets => run_busy_keeps_data hbusy hrun ⟨haccepted, hresets⟩

end Sys2Proof.Machine
end

section
/-!
The host's transactions at the bus (spec/20_memory.md R70 to R78; spec/60_exceptions.md R281): a refused access, a read, a
write that is discarded and a write that is stored.
-/

namespace Sys2Proof.Machine

/-! ### Refused accesses and reads -/

theorem wordAccess_of_aligned {off : Offset} (h : off.toNat % 4 = 0) : wordAccess off 4 = true := by
  simp [wordAccess, h]

theorem wordAccess_eq_false_iff (off : Offset) (size : Nat) :
    wordAccess off size = false ↔ size ≠ 4 ∨ off.toNat % 4 ≠ 0 := by
  simp [wordAccess, ← imp_iff_not_or]

/-- R70, R84: a transaction as the next move. -/
theorem step_txn {s : State} {x : Txn} {rest : List HostEvent} (hturn : s.HostTurn (.txn x) rest) :
    step s = .next (((s.taken rest).afterTxn x).recorded x (s.response x)) := by
  have hmove : s.hostMove (.txn x) rest = (s.taken rest).runTxn x := rfl
  rw [step_host hturn, hmove, State.runTxn_eq_recorded, State.response_taken]

/-- R76: a transaction that is not a word access has no effect. -/
theorem State.afterTxn_refused (s : State) {x : Txn} (h : x.wellFormed = false) : s.afterTxn x = s := by
  cases x with
  | read off size => rfl
  | write off size v => exact if_neg (ne_true_of_eq_false h)

/-- R281: a transaction that is not a word access is answered with BusError. -/
theorem State.response_refused (s : State) {x : Txn} (h : x.wellFormed = false) : s.response x = .busError := by
  cases x with
  | read off size => exact if_neg (ne_true_of_eq_false h)
  | write off size v => exact if_neg (ne_true_of_eq_false h)

theorem step_refused {s : State} {x : Txn} {rest : List HostEvent} (hturn : s.HostTurn (.txn x) rest)
    (h : x.wellFormed = false) : step s = .next ((s.taken rest).recorded x .busError) := by
  rw [step_txn hturn, State.afterTxn_refused _ h, State.response_refused _ h]

/-- R70, R77: the response to a word read is the word at its offset. -/
theorem State.response_read (s : State) {off : Offset} (haligned : off.toNat % 4 = 0) :
    s.response (.read off 4) = .rdata (s.busRead off) :=
  if_pos (wordAccess_of_aligned haligned)

theorem State.response_write (s : State) {off : Offset} (haligned : off.toNat % 4 = 0) (v : Word) :
    s.response (.write off 4 v) = .ok :=
  if_pos (wordAccess_of_aligned haligned)

/-- Settles O26: a refused access of either kind is one lemma about transactions that are not well-formed. -/
theorem busErrorChangesNothing : Obligations.BusErrorChangesNothing := by
  refine ⟨fun s off size rest hbad hturn => ?_, fun s off size v rest hbad hturn => ?_, fun s off v haligned => ⟨?_, ?_⟩⟩
  · exact step_refused hturn ((wordAccess_eq_false_iff off size).2 hbad)
  · exact step_refused hturn ((wordAccess_eq_false_iff off size).2 hbad)
  · rw [s.response_read haligned]
    exact Response.noConfusion
  · exact s.response_write haligned v

/-- The host's queue is no register of the window. -/
@[simp] theorem State.busRead_taken (s : State) (rest : List HostEvent) (off : Offset) :
    (s.taken rest).busRead off = s.busRead off := rfl

/-- The transcript is no register of the window. -/
@[simp] theorem State.busRead_recorded (s : State) (x : Txn) (r : Response) (off : Offset) :
    (s.recorded x r).busRead off = s.busRead off := rfl

/-- Settles O27: a read moves the queue and the transcript only, and no word of the window depends on them. -/
theorem readsHaveNoSideEffect : Obligations.ReadsHaveNoSideEffect := by
  refine fun s off rest haligned hturn => ⟨?_, fun off' => ?_⟩
  · rw [step_txn hturn, s.response_read haligned]
    rfl
  · rw [State.busRead_recorded, State.busRead_taken]

/-! ### The packing of words -/

/-- A low byte behind a sequence is the disjunction of the byte and the sequence shifted above it. -/
theorem zeroExtend_append_byte {w : Nat} (x : BitVec w) (b : Byte) :
    (x ++ b).zeroExtend 32 = b.zeroExtend 32 ||| (x.zeroExtend 32 <<< 8) := by
  ext n hn
  simp only [BitVec.getElem_setWidth, BitVec.getLsbD_append, BitVec.getElem_or, BitVec.getElem_shiftLeft]
  by_cases hlow : n < 8
  · simp [hlow]
  · simp [hlow, BitVec.getLsbD_of_ge b n (by omega)]

/-- R72: four bytes side by side are the disjunction of the bytes, each shifted to its place. -/
theorem append_bytes_eq_or (b0 b1 b2 b3 : Byte) :
    (b3 ++ b2 ++ b1 ++ b0 : Word) =
      b0.zeroExtend 32 ||| (b1.zeroExtend 32 <<< 8) ||| (b2.zeroExtend 32 <<< 16) ||| (b3.zeroExtend 32 <<< 24) := by
  have hext : (b3 ++ b2 ++ b1 ++ b0 : Word) = (b3 ++ b2 ++ b1 ++ b0).zeroExtend 32 := (BitVec.setWidth_eq _).symm
  rw [hext]
  simp only [zeroExtend_append_byte, BitVec.shiftLeft_or_distrib, ← BitVec.shiftLeft_add, BitVec.or_assoc]

/-- R72, R10: byte `i` of a 16-byte register after a write to one of its words. -/
theorem byteAt_unpackWord16 (s : Stream16) (k : Nat) (v : Word) {i : Nat} (h : i < 16) :
    byteAt (unpackWord16 s k v) i = writtenByte s k v i :=
  byteAt_stream16OfBytes _ h

theorem byteAt_unpackWord12 (s : Stream12) (k : Nat) (v : Word) {i : Nat} (h : i < 12) :
    byteAt (unpackWord12 s k v) i = writtenByte s k v i :=
  byteAt_stream12OfBytes _ h

theorem writtenByte_same {w : Nat} (s : BitVec w) (k : Nat) (v : Word) {j : Nat} (h : j < 4) :
    writtenByte s k v (4 * k + j) = v.extractLsb' (8 * j) 8 := by
  rw [writtenByte, if_pos (by omega), show (4 * k + j) % 4 = j by omega]

theorem writtenByte_other {w : Nat} (s : BitVec w) {k : Nat} (v : Word) {i : Nat} (h : i / 4 ≠ k) :
    writtenByte s k v i = byteAt s i :=
  if_neg h

/-- Settles O29: a packed word is four bytes side by side, and a written register is its bytes. -/
theorem wordPackingIsLittleEndian : Obligations.WordPackingIsLittleEndian := by
  refine ⟨fun s k _ => append_bytes_eq_or _ _ _ _, fun s k _ => append_bytes_eq_or _ _ _ _,
    fun s k v hk => ⟨fun j hj => ?_, fun i hi hik => ?_⟩, fun s k v hk => ⟨fun j hj => ?_, fun i hi hik => ?_⟩, by decide⟩
  · rw [byteAt_unpackWord16 s k v (by omega), writtenByte_same s k v hj]
  · rw [byteAt_unpackWord16 s k v hi, writtenByte_other s v hik]
  · rw [byteAt_unpackWord12 s k v (by omega), writtenByte_same s k v hj]
  · rw [byteAt_unpackWord12 s k v hi, writtenByte_other s v hik]

/-! ### Discarded writes -/

/-- R74: an aligned offset that the table gives to no register is reserved. -/
theorem selectReg_reserved {off : Offset} (haligned : off.toNat % 4 = 0) (h : off = 0x3C ∨ 0xA0 ≤ off.toNat) :
    selectReg off = .reserved := by
  obtain ⟨hid, hctrl, hstatus, hcmd⟩ := selectReg_control off haligned
  rcases h with rfl | hrange
  · rfl
  · have hne {c : Offset} (hc : c.toNat < 0xA0) : off ≠ c := by
      rintro rfl
      omega
    cases hsel : selectReg off with
    | reserved => rfl
    | id => exact absurd (hid.1 hsel) (hne (by decide))
    | ctrl => exact absurd (hctrl.1 hsel) (hne (by decide))
    | status => exact absurd (hstatus.1 hsel) (hne (by decide))
    | cmd => exact absurd (hcmd.1 hsel) (hne (by decide))
    | data r k =>
      obtain ⟨hrow, -, -⟩ := (selectReg_data_iff off r k).1 hsel
      have hbase : r.base.toNat / 16 < 10 := by cases r <;> decide
      omega

/-- R71, R75: the offsets of DOUT and TAG select a word of a read-only register. -/
theorem selectReg_output {off : Offset} (h : 0x80 ≤ off.toNat ∧ off.toNat < 0xA0) :
    ∃ r k, selectReg off = .data r k ∧ r.readOnly = true := by
  have hword : off.toNat / 4 % 4 < 4 := Nat.mod_lt _ (by decide)
  have hrow : off.toNat / 16 = 8 ∨ off.toNat / 16 = 9 := by omega
  rcases hrow with hdout | htag
  · exact ⟨.dout, _, (selectReg_data_iff off .dout _).2 ⟨hdout, rfl, hword⟩, rfl⟩
  · exact ⟨.tag, _, (selectReg_data_iff off .tag _).2 ⟨htag, rfl, hword⟩, rfl⟩

theorem State.busRead_reserved {s : State} {off : Offset} (h : selectReg off = .reserved) : s.busRead off = 0 := by
  rw [State.busRead, h]

theorem State.busWrite_reserved {s : State} {off : Offset} (h : selectReg off = .reserved) (v : Word) :
    s.busWrite off v = s := by
  rw [State.busWrite, h]

theorem State.busWrite_readOnly {s : State} {off : Offset} {r : DataReg} {k : Nat} (hsel : selectReg off = .data r k)
    (hro : r.readOnly = true) (v : Word) : s.busWrite off v = s := by
  simp [State.busWrite, hsel, State.writeData, hro]

/-- R34: bits [31:2] of CTRL read 0. -/
theorem State.ctrlWord_reserved (s : State) : s.ctrlWord.extractLsb' 2 30 = 0 := by
  unfold State.ctrlWord
  generalize s.ieErr = ieErr, s.ieDone = ieDone
  revert ieErr ieDone
  decide

/-- R34: bits [31:2] of a word written to CTRL are discarded. -/
theorem State.writeCtrl_masked (s : State) (v : Word) : s.writeCtrl v = s.writeCtrl (v &&& 0x3) := by
  simp [State.writeCtrl]

/-- R36: of a word written to STATUS only bits 1 and 2 count. -/
theorem State.writeStatus_masked (s : State) (v : Word) : s.writeStatus v = s.writeStatus (v &&& 0x6) := by
  simp [State.writeStatus]

/-- Settles O30: a reserved offset selects no register; the reserved bits of STATUS are O36's. -/
theorem reservedSpaceReadsZeroIgnoresWrites : Obligations.ReservedSpaceReadsZeroIgnoresWrites := by
  refine ⟨fun s off v rest haligned hrange => ?_, fun s v => ?_⟩
  · have hsel : selectReg off = .reserved := selectReg_reserved haligned hrange
    refine ⟨State.busRead_reserved hsel, fun hturn => ?_⟩
    rw [step_write hturn haligned, State.busWrite_reserved hsel]
  · obtain ⟨-, -, -, hlow, -, hhigh⟩ := statusWordLayout s
    exact ⟨s.ctrlWord_reserved, hlow, hhigh, s.writeCtrl_masked v, s.writeStatus_masked v⟩

/-- Settles O31: a write at ID's offset or to a read-only data register leaves the state that took it. -/
theorem readOnlyRegistersIgnoreWrites : Obligations.ReadOnlyRegistersIgnoreWrites := by
  refine fun s => ⟨rfl, fun off v rest haligned hoff hturn => ?_⟩
  rw [step_write hturn haligned]
  rcases hoff with rfl | hrange
  · rfl
  · obtain ⟨r, k, hsel, hro⟩ := selectReg_output hrange
    rw [State.busWrite_readOnly hsel hro]

/-! ### Stored writes -/

/-- R78: a write to a register that the host may write, while no command is in flight. -/
theorem State.busWrite_idle {s : State} {off : Offset} {r : DataReg} {k : Nat} (hidle : s.busy = false)
    (hsel : selectReg off = .data r k) (hro : r.readOnly = false) (v : Word) :
    s.busWrite off v = s.setDataWord r k v := by
  simp [State.busWrite, hsel, State.writeData, hro, hidle]

/-- R72: the words of the data registers after a store to word `k` of `r`. -/
theorem State.dataWord_setDataWord (s : State) {r r' : DataReg} {k k' : Nat} (v : Word) (hro : r.readOnly = false)
    (hk' : k' < r'.words) :
    (s.setDataWord r k v).dataWord r' k' = if r' = r ∧ k' = k then v else s.dataWord r' k' := by
  by_cases hr : r' = r
  · subst hr
    simp only [true_and]
    cases r' with
    | dout | tag => cases hro
    | iv => exact packWord_unpackWord12 _ v hk'
    | key | din | aad | hkey | ghy | ctr => exact packWord_unpackWord16 _ v hk'
  · rw [if_neg fun h => hr h.1]
    cases r' <;> simp [State.dataWord, Ne.symm hr]

/-- R71: one word of a data register stands at one aligned offset. -/
theorem selectReg_data_inj {off off' : Offset} {r : DataReg} {k : Nat} (h : selectReg off = .data r k)
    (h' : selectReg off' = .data r k) : off'.toNat / 4 = off.toNat / 4 := by
  obtain ⟨hrow, hword, -⟩ := (selectReg_data_iff off r k).1 h
  obtain ⟨hrow', hword', -⟩ := (selectReg_data_iff off' r k).1 h'
  omega

/-- R72: the word stored reads back. -/
theorem State.busRead_setDataWord_same (s : State) {off : Offset} {r : DataReg} {k : Nat}
    (hsel : selectReg off = .data r k) (hro : r.readOnly = false) (v : Word) :
    (s.setDataWord r k v).busRead off = v := by
  obtain ⟨-, -, hk⟩ := (selectReg_data_iff off r k).1 hsel
  rw [State.busRead_data hsel, s.dataWord_setDataWord v hro hk, if_pos ⟨rfl, rfl⟩]

/-- R72: a store to one word leaves every other word of the window. -/
theorem State.busRead_setDataWord_other (s : State) {off off' : Offset} {r : DataReg} {k : Nat}
    (hsel : selectReg off = .data r k) (hro : r.readOnly = false) (v : Word) (hne : off'.toNat / 4 ≠ off.toNat / 4) :
    (s.setDataWord r k v).busRead off' = s.busRead off' := by
  cases hsel' : selectReg off' with
  | data r' k' =>
    obtain ⟨-, -, hk'⟩ := (selectReg_data_iff off' r' k').1 hsel'
    have hother : ¬(r' = r ∧ k' = k) := by
      rintro ⟨rfl, rfl⟩
      exact hne (selectReg_data_inj hsel hsel')
    rw [State.busRead_data hsel', State.busRead_data hsel', s.dataWord_setDataWord v hro hk', if_neg hother]
  | ctrl => simp [State.busRead, hsel', State.ctrlWord]
  | status => simp [State.busRead, hsel', State.statusWord]
  | id | cmd | reserved => simp [State.busRead, hsel']

/-- Settles O32: the step is one store into the register that the offset selects. -/
theorem idleOperandWriteStoresOneWord : Obligations.IdleOperandWriteStoresOneWord := by
  intro s off v rest hidle haligned hrange hturn
  obtain ⟨r, k, hsel, hro⟩ := selectReg_operand hrange
  refine ⟨_, step_write hturn haligned, ?_⟩
  rw [State.busWrite_idle (s := s.taken rest) hidle hsel hro]
  refine ⟨?_, fun off' hne => ?_, ?_⟩
  · exact (s.taken rest).busRead_setDataWord_same hsel hro v
  · exact (s.taken rest).busRead_setDataWord_other hsel hro v hne
  · simp

end Sys2Proof.Machine
end

section
/-!
The statements about command words: which words name a command, and what a write of one that names none does
(spec/30_encoding.md R100 to R105).
-/

namespace Sys2Proof

/-! ### The words that name a command -/

/-- Settles O2: the two fields of a word determine it, so the word of a command is the only one that decodes to it. -/
theorem decodeAndEncodeAgree : Obligations.DecodeAndEncodeAgree := by
  refine fun i v => ⟨eq_encode_of_decode, ?_⟩
  rintro rfl
  exact decode_encode i

theorem Decoded.command?_eq_some_iff (d : Decoded) (i : Instr) : d.command? = some i ↔ d = .command i := by
  cases d <;> simp [Decoded.command?]

/-- R102: OPCODE 0x01 to 0x06 all are some command's. -/
theorem exists_opcode_eq {op : Byte} (h : 0x01 ≤ op.toNat ∧ op.toNat ≤ 0x06) : ∃ i : Instr, i.opcode = op := by
  have hop : op.toNat = 1 ∨ op.toNat = 2 ∨ op.toNat = 3 ∨ op.toNat = 4 ∨ op.toNat = 5 ∨ op.toNat = 6 := by omega
  rcases hop with hop | hop | hop | hop | hop | hop
  · exact ⟨.aesEnc, BitVec.eq_of_toNat_eq hop.symm⟩
  · exact ⟨.gmul, BitVec.eq_of_toNat_eq hop.symm⟩
  · exact ⟨.ghashStep, BitVec.eq_of_toNat_eq hop.symm⟩
  · exact ⟨.gctr, BitVec.eq_of_toNat_eq hop.symm⟩
  · exact ⟨.inc32, BitVec.eq_of_toNat_eq hop.symm⟩
  · exact ⟨.aesGcmEnc, BitVec.eq_of_toNat_eq hop.symm⟩

/-- R104: the legal words are those with MBZ = 0 and OPCODE in 0x01 to 0x06; every other word names no command. -/
theorem decode_command?_eq_none {v : Word}
    (h : ¬(mbzField v = 0 ∧ 0x01 ≤ (opcodeField v).toNat ∧ (opcodeField v).toNat ≤ 0x06)) : (decode v).command? = none := by
  refine Option.eq_none_iff_forall_ne_some.2 fun i hsome => h ?_
  obtain ⟨hmbz, hop⟩ := (decode_eq_command_iff v i).1 ((Decoded.command?_eq_some_iff _ i).1 hsome)
  rw [hop]
  exact ⟨hmbz, i.opcode_range⟩

/-- Settles O1: in the range of R105 the OPCODE is some command's, which the word decodes to; a write while busy does not look
at the word. -/
theorem decoderIsTotalOnAllWords : Obligations.DecoderIsTotalOnAllWords := by
  refine ⟨fun v hlegal => ?_, fun v hillegal => decode_command?_eq_none hillegal, fun s v hbusy => s.writeCmd_busy hbusy v⟩
  obtain ⟨hmbz, hrange⟩ := hlegal
  obtain ⟨i, hop⟩ := exists_opcode_eq hrange
  have hdec : decode v = .command i := (decode_eq_command_iff v i).2 ⟨hmbz, hop.symm⟩
  exact ⟨i, (Decoded.command?_eq_some_iff _ i).2 hdec, hop⟩

/-- Settles O6: each of R104's three kinds of word is out of the legal range. -/
theorem everyUnlistedWordIsIllegal : Obligations.EveryUnlistedWordIsIllegal := by
  intro s v hidle hkind
  have hnone : (decode v).command? = none := by
    refine decode_command?_eq_none ?_
    rintro ⟨hmbz, hlow, hhigh⟩
    rcases hkind with hzero | hbig | hmbz'
    · rw [opcodeField, hzero] at hlow
      exact absurd hlow (by decide)
    · exact absurd hhigh (Nat.not_le_of_lt hbig)
    · exact hmbz' hmbz
  have hdec (i : Instr) : decode v ≠ .command i := by
    intro h
    rw [(Decoded.command?_eq_some_iff _ i).2 h] at hnone
    cases hnone
  exact ⟨hnone, by rw [Machine.State.writeCmd_illegal hidle hdec, Machine.State.raiseCmdError_eq]; rfl⟩

/-- Settles O3: the words are the six encodings, and three that are out of the legal range. -/
theorem sixCommandWordsDecode : Obligations.SixCommandWordsDecode :=
  ⟨decode_encode .aesEnc, decode_encode .gmul, decode_encode .ghashStep, decode_encode .gctr, decode_encode .inc32,
    decode_encode .aesGcmEnc, decode_command?_eq_none (by decide), decode_command?_eq_none (by decide),
    decode_command?_eq_none (by decide)⟩

end Sys2Proof
end

section
/-!
The WAIT loop of a host program (spec/30_encoding.md R107; spec/70_reset_and_hazards.md R340).
-/

namespace Sys2Proof.Machine

/-! ### One turn of the loop -/

/-- R107: the loop's exit test is met once DONE is set. -/
theorem State.waitExits_of_done {s : State} (h : s.done = true) : waitExits s.statusWord = true := by
  obtain ⟨-, hdone, -⟩ := statusWordLayout s
  refine bne_iff_ne.2 fun hzero => ?_
  have hbit : (s.statusWord &&& 0x6).getLsbD 1 = s.done := by rw [BitVec.getLsbD_and, hdone]; exact Bool.and_true _
  rw [hzero, h] at hbit
  cases hbit

/-- R107: a turn of the loop is a read of STATUS, after which a WAIT stands in the queue again unless the exit test is met. -/
theorem step_wait {s : State} {rest : List HostEvent} (hturn : s.HostTurn .wait rest) :
    step s = .next ((s.taken (if waitExits s.statusWord then rest else .wait :: rest)).recorded
      (.read statusOffset 4) (.rdata s.statusWord)) := by
  rw [step_host hturn]
  rcases s.hostMove_cases .wait rest with ⟨_, ⟨⟩, -⟩ | ⟨-, hexit, hm⟩ | ⟨-, hstay, hm⟩ | ⟨_, ⟨⟩, -⟩ | ⟨_, ⟨⟩, -⟩
  · rw [hm, hexit]
    rfl
  · rw [hm, hstay]
    rfl

/-! ### The loop -/

/-- The WAIT before the events `rest` is over within `bound` steps from `s`, by a read of STATUS that shows DONE or ERR. -/
def State.WaitOver (s : State) (rest : List HostEvent) (bound : Nat) : Prop :=
  ∃ n t v, n ≤ bound ∧ core.run n s = .next t ∧ t.pending = rest ∧
    t.transcript.head? = some ⟨.read 0x08 4, .rdata v⟩ ∧ v &&& 0x6 ≠ 0

theorem State.WaitOver.of_step {s t : State} {rest : List HostEvent} {bound : Nat} (hstep : step s = .next t)
    (h : t.WaitOver rest bound) : s.WaitOver rest (bound + 1) := by
  obtain ⟨n, u, v, hn, hrun, hend⟩ := h
  exact ⟨n + 1, u, v, Nat.succ_le_succ hn, (run_succ hstep).trans hrun, hend⟩

/-- R107: the loop ends with the read that meets the exit test. -/
theorem State.waitOver_of_exits {s : State} {rest : List HostEvent} (hturn : s.HostTurn .wait rest)
    (hexit : waitExits s.statusWord = true) : s.WaitOver rest 1 := by
  refine ⟨1, _, s.statusWord, le_rfl, run_succ (step_wait hturn), ?_, rfl, ?_⟩
  · exact if_pos hexit
  · simpa [waitExits] using hexit

/-- R54, R107: once the command in flight has no event before it, its completion sets DONE and the next read ends the loop. -/
theorem State.waitOver_of_engine {s : State} {i : Instr} {rest : List HostEvent} (hturn : s.EngineTurn i)
    (hpending : s.pending = .wait :: rest) : s.WaitOver rest 2 := by
  obtain ⟨ghy, ctr, dout, tag, hexec⟩ := exec_shape i s
  have hstep := (step_engine hturn).trans hexec
  exact .of_step hstep (waitOver_of_exits ⟨step_legal hstep, hpending, nofun⟩ (waitExits_of_done rfl))

/-- R107, R340: by induction on the host events that precede the completion: each turn of the loop that does not end it is one of
them. -/
theorem State.waitOver_of_busy {lag : Nat} {s : State} {rest : List HostEvent} (hlag : s.lag = lag) (hlegal : s.legal = true)
    (hbusy : s.busy = true) (hpending : s.pending = .wait :: rest) : s.WaitOver rest (lag + 2) := by
  induction lag generalizing s with
  | zero =>
    obtain ⟨hop, -⟩ := s.legal_iff.1 hlegal
    obtain ⟨i, hi⟩ := Option.isSome_iff_exists.1 (hop.symm.trans hbusy)
    exact waitOver_of_engine ⟨hlegal, hi, .inl hlag⟩ hpending
  | succ lag ih =>
    have hturn : s.HostTurn .wait rest := ⟨hlegal, hpending, fun _ => by omega⟩
    cases hexit : waitExits s.statusWord with
    | true =>
      obtain ⟨n, t, v, hn, hend⟩ := waitOver_of_exits hturn hexit
      exact ⟨n, t, v, by omega, hend⟩
    | false =>
      have hstep := step_wait hturn
      rw [hexit] at hstep
      exact .of_step hstep (ih (Nat.sub_eq_of_eq_add hlag) hlegal hbusy rfl)

/-- Settles O25: the loop ends at the latest with the read after the completion, which sets DONE. -/
theorem waitLoopEnds : Obligations.WaitLoopEnds :=
  fun _ _ hlegal hbusy hpending => State.waitOver_of_busy rfl hlegal hbusy hpending

end Sys2Proof.Machine
end

section
/-!
The representation utilities: the AES state and a stream (R130 to R132), a byte and its bits (R133), a stream and its BitVector
(R134), exclusive-or and the right shift (R135, R136) of spec/40_representation.md.
-/

namespace Sys2Proof.Machine

/-! ### The AES state -/

/-- R130: the column-major layout. -/
@[simp] theorem entry_toBlock (s : Stream16) (r c : Fin 4) : entry (toBlock s) r c = byteAt s (4 * c.val + r.val) :=
  entry_blockOf _ r c

/-- R131: the inverse layout. -/
theorem byteAt_toStream (b : Block) {i : Nat} (h : i < 16) :
    byteAt (toStream b) i = entry b (Fin.ofNat 4 i) (Fin.ofNat 4 (i / 4)) :=
  byteAt_stream16OfBytes _ h

/-- R132: the entry at row `r`, column `c` is byte `4c + r` of the stream, whose row and column are `r` and `c`. -/
theorem toBlock_toStream (b : Block) : toBlock (toStream b) = b := by
  refine block_ext fun r c => ?_
  have hrow : Fin.ofNat 4 (4 * c.val + r.val) = r := Fin.ext (show (4 * c.val + r.val) % 4 = r.val by omega)
  have hcol : Fin.ofNat 4 ((4 * c.val + r.val) / 4) = c := Fin.ext (show (4 * c.val + r.val) / 4 % 4 = c.val by omega)
  rw [entry_toBlock, byteAt_toStream b (by omega), hrow, hcol]

/-- R132: byte `i` is the entry at row `i mod 4`, column `i div 4`, and `4 (i div 4) + i mod 4 = i`. -/
theorem toStream_toBlock (s : Stream16) : toStream (toBlock s) = s := by
  refine stream16_ext fun i hi => ?_
  have hindex : 4 * (Fin.ofNat 4 (i / 4)).val + (Fin.ofNat 4 i).val = i :=
    show 4 * (i / 4 % 4) + i % 4 = i by omega
  rw [byteAt_toStream _ hi, entry_toBlock, hindex]

/-- Settles O41: each layout by its law, either inverse entry by entry or byte by byte. -/
theorem blockAndStreamAreInverse : Obligations.BlockAndStreamAreInverse := by
  refine ⟨entry_toBlock, fun b i => ?_, toBlock_toStream, toStream_toBlock, by decide, by decide⟩
  have hrow : Fin.ofNat 4 (i.val % 4) = Fin.ofNat 4 i.val := Fin.ext (Nat.mod_mod i.val 4)
  rw [byteAt_toStream b i.isLt, hrow]

/-! ### A byte and its bits -/

/-- R133: bit `j` is numbered from the most significant end. -/
@[simp] theorem getElem_byteToBits (b : Byte) {j : Nat} (h : j < 8) : (byteToBits b)[j] = b.getLsbD (7 - j) := by
  simp [byteToBits]

/-- R133: the sum over the bits, as the library's number of a binary expansion (bit 0 least significant). -/
theorem ofBits_reversed (t : Vector Bool 8) : Nat.ofBits (fun k : Fin 8 => t[7 - k.val]) =
    t[0].toNat * 128 + t[1].toNat * 64 + t[2].toNat * 32 + t[3].toNat * 16 + t[4].toNat * 8 + t[5].toNat * 4 +
      t[6].toNat * 2 + t[7].toNat := by
  simp [Nat.ofBits_succ]
  omega

/-- R133: the sum is below 256, so that the byte holds it whole. -/
theorem toNat_bitsToByte (t : Vector Bool 8) : (bitsToByte t).toNat =
    t[0].toNat * 128 + t[1].toNat * 64 + t[2].toNat * 32 + t[3].toNat * 16 + t[4].toNat * 8 + t[5].toNat * 4 +
      t[6].toNat * 2 + t[7].toNat := by
  have hlt := Nat.ofBits_lt_two_pow fun k : Fin 8 => t[7 - k.val]
  rw [ofBits_reversed] at hlt
  simpa [bitsToByte, Fin.sum_univ_eight] using Nat.mod_eq_of_lt hlt

/-- R133: bit `7 - j` of the byte is `t(j)`. -/
theorem getLsbD_bitsToByte (t : Vector Bool 8) {j : Nat} (h : j < 8) : (bitsToByte t).getLsbD (7 - j) = t[j] := by
  rw [← BitVec.testBit_toNat, toNat_bitsToByte, ← ofBits_reversed, Nat.testBit_ofBits_lt _ _ (by omega)]
  simp [show 7 - (7 - j) = j by omega]

/-- R133: one inverse law. -/
@[simp] theorem byteToBits_bitsToByte (t : Vector Bool 8) : byteToBits (bitsToByte t) = t :=
  Vector.ext fun _ hj => (getElem_byteToBits _ hj).trans (getLsbD_bitsToByte t hj)

/-- R133: the other inverse law. -/
@[simp] theorem bitsToByte_byteToBits (b : Byte) : bitsToByte (byteToBits b) = b := by
  refine BitVec.eq_of_getLsbD_eq fun k hk => ?_
  have h := getLsbD_bitsToByte (byteToBits b) (j := 7 - k) (by omega)
  rwa [getElem_byteToBits, show 7 - (7 - k) = k by omega] at h

/-- Settles O42: the four laws of R133. -/
theorem byteAndBitsAreInverse : Obligations.ByteAndBitsAreInverse :=
  ⟨fun b j => getElem_byteToBits b j.isLt, toNat_bitsToByte, bitsToByte_byteToBits, byteToBits_bitsToByte⟩

/-! ### A stream and its BitVector -/

/-- R134: bit `j` of byte `i`, both numbered from the most significant end, is bit `8i + j` of the BitVector. -/
theorem getMsbD_byteAt (s : Stream16) {i j : Nat} (hi : i < 16) (hj : j < 8) :
    (byteAt s i).getMsbD j = bitAt (streamToBits s) (8 * i + j) := by
  have hindex : 128 - (128 - 8 * (i + 1) + 8 - j) = 8 * i + j := by omega
  rw [byteAt, BitVec.getMsbD_extractLsb', decide_eq_true hj, decide_eq_true (by omega), Bool.true_and, Bool.true_and, hindex]
  rfl

/-- R134: `v(8i + j) = s[i][7 - j]`. -/
theorem bitAt_streamToBits (s : Stream16) {i j : Nat} (hi : i < 16) (hj : j < 8) :
    bitAt (streamToBits s) (8 * i + j) = (byteAt s i).getLsbD (7 - j) := by
  rw [← getMsbD_byteAt s hi hj, BitVec.getMsbD_eq_getLsbD, decide_eq_true hj, Bool.true_and]

/-- R134: byte `i` of the stream of `v` is the byte of the bits `8i` to `8i + 7`. -/
theorem byteAt_bitsToStream (v : BitVector) {i : Nat} (hi : i < 16) :
    byteAt (bitsToStream v) i = bitsToByte (Vector.ofFn fun j : Fin 8 => bitAt v (8 * i + j.val)) := by
  have hbits : byteToBits (byteAt (bitsToStream v) i) = Vector.ofFn fun j : Fin 8 => bitAt v (8 * i + j.val) := by
    refine Vector.ext fun j hj => ?_
    rw [getElem_byteToBits, ← bitAt_streamToBits _ hi hj, Vector.getElem_ofFn]
    rfl
  rw [← hbits, bitsToByte_byteToBits]

/-- Settles O43: the stream and the BitVector are the same 128 bits in the same order, so that the indexing laws carry the content
and the inverse laws hold by definition. -/
theorem streamAndBitsAreInverse : Obligations.StreamAndBitsAreInverse :=
  ⟨fun s _ _ => bitAt_streamToBits s, fun v _ => byteAt_bitsToStream v, fun _ => rfl, fun _ => rfl, by decide, by decide⟩

/-! ### Exclusive-or and right shift -/

/-- R136: bit `k` of the shifted BitVector is the bit before it, and a zero at bit 0. -/
theorem bitAt_bitwiseRightShift (v : BitVector) {k : Nat} (h : k < 128) :
    bitAt (bitwiseRightShift v) k = if k = 0 then false else bitAt v (k - 1) := by
  cases k <;> simp [bitAt, bitwiseRightShift, BitVec.getMsbD_ushiftRight, h]

/-- R136: a byte shifted right takes the last bit of the byte `p` before it as its first. -/
theorem getMsbD_ushiftRight_or_carry (b p : Byte) {j : Nat} (h : j < 8) :
    ((b >>> 1) ||| ((p &&& 1) <<< 7)).getMsbD j = if j = 0 then p.getMsbD 7 else b.getMsbD (j - 1) := by
  cases j with
  | zero => simp [BitVec.getMsbD_ushiftRight, BitVec.getMsbD_shiftLeft]
  | succ j => simp [BitVec.getMsbD_ushiftRight, BitVec.getMsbD_shiftLeft, h]

/-- R136: bit `j` of byte `i` of the shifted stream. -/
theorem getMsbD_byteAt_bitwiseRightShift (s : Stream16) {i j : Nat} (hi : i < 16) (hj : j < 8) :
    (byteAt (bitsToStream (bitwiseRightShift (streamToBits s))) i).getMsbD j =
      if 8 * i + j = 0 then false else bitAt (streamToBits s) (8 * i + j - 1) :=
  (getMsbD_byteAt _ hi hj).trans (bitAt_bitwiseRightShift _ (by omega))

/-- R136: the first byte of the shifted stream. -/
theorem byteAt_zero_bitwiseRightShift (s : Stream16) :
    byteAt (bitsToStream (bitwiseRightShift (streamToBits s))) 0 = byteAt s 0 >>> 1 := by
  refine BitVec.eq_of_getMsbD_eq fun j hj => ?_
  rw [getMsbD_byteAt_bitwiseRightShift s (by omega) hj, BitVec.getMsbD_ushiftRight]
  cases j with
  | zero => rfl
  | succ j => simp [hj, getMsbD_byteAt s (i := 0) (j := j) (by omega) (by omega)]

/-- R136: a later byte of the shifted stream takes in the last bit of the byte before it. -/
theorem byteAt_succ_bitwiseRightShift (s : Stream16) {i : Nat} (hi : i + 1 < 16) :
    byteAt (bitsToStream (bitwiseRightShift (streamToBits s))) (i + 1) =
      (byteAt s (i + 1) >>> 1) ||| ((byteAt s i &&& 1) <<< 7) := by
  refine BitVec.eq_of_getMsbD_eq fun j hj => ?_
  rw [getMsbD_byteAt_bitwiseRightShift s hi hj, getMsbD_ushiftRight_or_carry _ _ hj, if_neg (by omega)]
  cases j with
  | zero => exact (getMsbD_byteAt s (by omega) (by omega)).symm
  | succ j => exact (getMsbD_byteAt s hi (by omega)).symm

/-- Settles O44: exclusive-or by the laws of its bytes and bits, the right shift bit by bit and then byte by byte. -/
theorem xorAndShiftOnBitsAndBytes : Obligations.XorAndShiftOnBitsAndBytes := by
  refine ⟨fun a b i _ => byteAt_xor a b i, fun a b i _ => byteAt_xor a b i, fun _ _ _ _ => BitVec.getMsbD_xor,
    fun v => ⟨bitAt_bitwiseRightShift v (by omega), fun k hpos hle => ?_⟩,
    fun s => ⟨byteAt_zero_bitwiseRightShift s, fun i hpos hle => ?_⟩, by decide, by decide⟩
  · rw [bitAt_bitwiseRightShift v (by omega), if_neg (by omega)]
  · obtain ⟨k, rfl⟩ := Nat.exists_eq_add_of_le' hpos
    exact byteAt_succ_bitwiseRightShift s (by omega)

end Sys2Proof.Machine
end

section
/-!
AES-128: the S-box, the key schedule, the round layers, the block transform and AES_ENC (spec/41_aes128.md R150 to R165).
-/

namespace Sys2Proof.Machine

/-! ### Words side by side -/

/-- R10: the bytes of a sequence with another behind it. -/
theorem byteAt_append_front {v w : Nat} (a : BitVec w) (b : BitVec v) {i : Nat} (h : 8 * (i + 1) ≤ w) :
    byteAt (a ++ b) i = byteAt a i := by
  unfold byteAt
  ext j hj
  simp only [BitVec.getElem_extractLsb', BitVec.getLsbD_append]
  rw [if_neg (by omega)]
  congr 1
  omega

/-- R10: the bytes behind a sequence of `m` bytes. -/
theorem byteAt_append_behind {m v w : Nat} (a : BitVec w) (b : BitVec v) {i : Nat} (hw : w = 8 * m)
    (h : 8 * (i + 1) ≤ v) : byteAt (a ++ b) (m + i) = byteAt b i := by
  unfold byteAt
  ext j hj
  simp only [BitVec.getElem_extractLsb', BitVec.getLsbD_append]
  rw [if_pos (by omega)]
  congr 1
  omega

/-- R10, R158: the bytes of four words side by side. -/
theorem byteAt_fourWords (a b c d : KeyWord) {i : Nat} (h : i < 4) :
    byteAt (a ++ b ++ c ++ d) i = byteAt a i ∧ byteAt (a ++ b ++ c ++ d) (4 + i) = byteAt b i ∧
      byteAt (a ++ b ++ c ++ d) (8 + i) = byteAt c i ∧ byteAt (a ++ b ++ c ++ d) (12 + i) = byteAt d i := by
  refine ⟨?_, ?_, ?_, byteAt_append_behind _ _ rfl (by omega)⟩
  · rw [byteAt_append_front _ _ (by omega), byteAt_append_front _ _ (by omega), byteAt_append_front _ _ (by omega)]
  · rw [byteAt_append_front _ _ (by omega), byteAt_append_front _ _ (by omega)]
    exact byteAt_append_behind a b rfl (by omega)
  · rw [byteAt_append_front _ _ (by omega)]
    exact byteAt_append_behind (a ++ b) c rfl (by omega)

/-- R158: column `c` of round key `r` is word `4r + c` of the schedule. -/
theorem byteAt_roundKey (w : List KeyWord) (r : Nat) (row c : Fin 4) :
    byteAt (roundKey w r) (4 * c.val + row.val) = byteAt (scheduleWord w (4 * r + c.val)) row.val := by
  obtain ⟨h0, h1, h2, h3⟩ := byteAt_fourWords (scheduleWord w (4 * r)) (scheduleWord w (4 * r + 1))
    (scheduleWord w (4 * r + 2)) (scheduleWord w (4 * r + 3)) row.isLt
  match c with
  | 0 => simpa [roundKey] using h0
  | 1 => exact h1
  | 2 => exact h2
  | 3 => exact h3

/-! ### The S-box -/

/-- The inverse of the affine map of R151: bit `i` is the sum of bits `i + 2`, `i + 5` and `i + 7` and the constant's. -/
def sboxAffineInverse (s : Byte) : Byte := s.rotateLeft 6 ^^^ s.rotateLeft 3 ^^^ s.rotateLeft 1 ^^^ 0x05

/-- R151: the affine map undoes its inverse, checked at all 256 bytes. -/
theorem sboxAffine_sboxAffineInverse (s : Byte) : sboxAffine (sboxAffineInverse s) = s := by
  revert s
  decide +kernel

/-- R151: the affine map bit by bit. -/
theorem getLsbD_sboxAffine (b : Byte) (i : Fin 8) : (sboxAffine b).getLsbD i.val =
    (b.getLsbD i.val ^^ b.getLsbD ((i.val + 4) % 8) ^^ b.getLsbD ((i.val + 5) % 8) ^^ b.getLsbD ((i.val + 6) % 8) ^^
      b.getLsbD ((i.val + 7) % 8) ^^ (0x63 : Byte).getLsbD i.val) := by
  have hrotate (k : Nat) (hk : k < 8) : (b.rotateRight k).getLsbD i.val = b.getLsbD ((i.val + k) % 8) := by
    rw [BitVec.getLsbD_rotateRight, Nat.mod_eq_of_lt hk]
    rcases Nat.lt_or_ge i.val (8 - k) with hi | hi
    · rw [decide_eq_true hi, cond_true, Nat.mod_eq_of_lt (by omega), Nat.add_comm]
    · rw [decide_eq_false (by omega), cond_false, decide_eq_true i.isLt, Bool.true_and]
      congr 1
      omega
  simp only [sboxAffine, BitVec.getLsbD_xor, hrotate, Nat.reduceLT]

/-- R151, R152: what the affine map takes to `S(x)` is the inverse of `x`, entry by entry of the table. -/
theorem gf8Mul_sboxAffineInverse_sbox : ∀ x : Byte, x ≠ 0 → gf8Mul x (sboxAffineInverse (sbox x)) = 1 := by
  decide +kernel

/-- Settles O45: `inv(x)` is read off the table by the inverse of the affine map. -/
theorem sboxIsInverseThenAffine : Obligations.SboxIsInverseThenAffine := by
  intro x
  refine ⟨sboxAffineInverse (sbox x), ?_, gf8Mul_sboxAffineInverse_sbox x, fun i => ?_⟩
  · rintro rfl
    decide
  · rw [← getLsbD_sboxAffine, sboxAffine_sboxAffineInverse]

/-! ### The key schedule -/

/-- R155: RotWord takes each byte from the next place. -/
theorem byteAt_rotWord (a : KeyWord) {i : Nat} (h : i < 4) : byteAt (rotWord a) i = byteAt a ((i + 1) % 4) := by
  obtain ⟨h0, h1, h2, h3⟩ := byteAt_be32 (byteAt a 1) (byteAt a 2) (byteAt a 3) (byteAt a 0)
  match i with
  | 0 => exact h0
  | 1 => exact h1
  | 2 => exact h2
  | 3 => exact h3

/-- R156: SubWord is the S-box on each byte. -/
theorem byteAt_subWord (a : KeyWord) {i : Nat} (h : i < 4) : byteAt (subWord a) i = sbox (byteAt a i) := by
  obtain ⟨h0, h1, h2, h3⟩ :=
    byteAt_be32 (sbox (byteAt a 0)) (sbox (byteAt a 1)) (sbox (byteAt a 2)) (sbox (byteAt a 3))
  match i with
  | 0 => exact h0
  | 1 => exact h1
  | 2 => exact h2
  | 3 => exact h3

/-- R153: each round constant is the double of the one before. -/
theorem roundConstant_succ {j : Nat} (h : 1 ≤ j) : roundConstant (j + 1) = xtime (roundConstant j) := by
  obtain ⟨k, rfl⟩ := Nat.exists_eq_add_of_le' h
  rfl

/-- Settles O47: the constants by doubling from 1, the words by their bytes. -/
theorem scheduleHelpersActOnBytes : Obligations.ScheduleHelpersActOnBytes :=
  ⟨by decide, fun _ => roundConstant_succ, fun j => byteAt_be32 (roundConstant j) 0 0 0, fun a _ => byteAt_rotWord a,
    fun a _ => byteAt_subWord a⟩

/-- R157: the schedule up to word `n + 3` has `n + 4` words. -/
theorem length_expandDown (key : Stream16) (n : Nat) : (expandDown key n).length = n + 4 := by
  induction n with
  | zero => rfl
  | succ n ih => rw [expandDown, List.length_cons, ih]

/-- R157: the words made later stand before the ones made so far, which stay. -/
theorem expandDown_add_getD (key : Stream16) (n d j : Nat) :
    (expandDown key (n + d)).getD (d + j) 0 = (expandDown key n).getD j 0 := by
  induction d generalizing j with
  | zero => rw [Nat.add_zero, Nat.zero_add]
  | succ d ih => rw [← ih j, ← Nat.add_assoc, Nat.succ_add, expandDown, List.getD_cons_succ]

/-- R157: word `i` of the schedule, read where the recursion has come to word `n + 3`. -/
theorem scheduleWord_expand (key : Stream16) {n i : Nat} (hn : n ≤ 40) (hi : i ≤ n + 3) :
    scheduleWord (expand key) i = (expandDown key n).getD (n + 3 - i) 0 := by
  obtain ⟨d, hd⟩ := Nat.exists_eq_add_of_le hn
  have hlen := length_expandDown key 40
  rw [← expandDown_add_getD key n d, ← hd, scheduleWord, expand, List.getD_reverse _ (by omega), hlen]
  congr 1
  omega

/-- R157: the recurrence. -/
theorem scheduleWord_expand_succ (key : Stream16) {n : Nat} (h : n < 40) :
    scheduleWord (expand key) (n + 4) =
      wordXor (scheduleWord (expand key) n) (scheduleTemp (n + 4) (scheduleWord (expand key) (n + 3))) := by
  rw [scheduleWord_expand key (n := n + 1) h (by omega), scheduleWord_expand key (n := n) h.le (by omega),
    scheduleWord_expand key (n := n) (i := n + 3) h.le le_rfl, Nat.add_sub_cancel_left]
  simp [expandDown]

/-- R154, R157: the first four words are the key. -/
theorem scheduleWord_expand_key (key : Stream16) {i : Nat} (h : i < 4) :
    scheduleWord (expand key) i = keyWord key i := by
  rw [scheduleWord_expand key (n := 0) (by omega) (by omega)]
  match i with
  | 0 | 1 | 2 | 3 => rfl

/-- Settles O46: the four words of the key, then the recurrence; the example by evaluation. -/
theorem keyScheduleFollowsFips : Obligations.KeyScheduleFollowsFips := by
  refine ⟨fun key => ⟨?_, fun _ => scheduleWord_expand_key key, fun i hlow hhigh => ?_⟩,
    by decide +kernel, by decide +kernel⟩
  · rw [expand, List.length_reverse, length_expandDown]
  · obtain ⟨n, rfl⟩ := Nat.exists_eq_add_of_le' hlow
    exact scheduleWord_expand_succ key (by omega)

/-! ### The round layers -/

/-- R159: AddRoundKey entry by entry. -/
theorem entry_addRoundKey (w : List KeyWord) (r : Nat) (b : Block) (row c : Fin 4) :
    entry (addRoundKey w r b) row c = entry b row c ^^^ byteAt (scheduleWord w (4 * r + c.val)) row.val :=
  entry_blockOf _ row c

/-- Settles O48: the stream of the block and round key `r`, read entry by entry. -/
theorem addRoundKeyIsStreamXor : Obligations.AddRoundKeyIsStreamXor := by
  refine fun w r b => ⟨entry_addRoundKey w r b, block_ext fun row c => ?_⟩
  rw [entry_addRoundKey, entry_toBlock, streamXor, byteAt_xor, byteAt_roundKey, ← entry_toBlock, toBlock_toStream]

/-- R160: SubBytes entry by entry. -/
theorem entry_subBytes (b : Block) (r c : Fin 4) : entry (subBytes b) r c = sbox (entry b r c) :=
  entry_blockOf _ r c

/-- R161: ShiftRows entry by entry, the column taken mod 4. -/
theorem entry_shiftRows (b : Block) (r c : Fin 4) :
    entry (shiftRows b) r c = entry b r (Fin.ofNat 4 (c.val + r.val)) :=
  entry_blockOf _ r c

/-- R152, R162: the product with 2 is the double, checked at all 256 bytes. -/
theorem gf8Mul_two : ∀ a : Byte, gf8Mul 2 a = xtime a := by decide +kernel

/-- R152, R162: the product with 3 is the double and the byte itself, checked at all 256 bytes. -/
theorem gf8Mul_three : ∀ a : Byte, gf8Mul 3 a = xtime a ^^^ a := by decide +kernel

/-- R162: line `r` of MixColumns, the rows taken mod 4. -/
theorem entry_mixColumns (b : Block) (r c : Fin 4) : entry (mixColumns b) r c =
    gf8Mul 2 (entry b r c) ^^^ gf8Mul 3 (entry b (r + 1) c) ^^^ entry b (r + 2) c ^^^ entry b (r + 3) c := by
  rw [gf8Mul_two, gf8Mul_three]
  exact entry_blockOf _ r c

/-- R162: the four lines of MixColumns as the rule writes them: one line, rotated. -/
theorem mixColumns_lines (b : Block) (c : Fin 4) :
    entry (mixColumns b) 0 c = gf8Mul 2 (entry b 0 c) ^^^ gf8Mul 3 (entry b 1 c) ^^^ entry b 2 c ^^^ entry b 3 c ∧
    entry (mixColumns b) 1 c = entry b 0 c ^^^ gf8Mul 2 (entry b 1 c) ^^^ gf8Mul 3 (entry b 2 c) ^^^ entry b 3 c ∧
    entry (mixColumns b) 2 c = entry b 0 c ^^^ entry b 1 c ^^^ gf8Mul 2 (entry b 2 c) ^^^ gf8Mul 3 (entry b 3 c) ∧
    entry (mixColumns b) 3 c = gf8Mul 3 (entry b 0 c) ^^^ entry b 1 c ^^^ entry b 2 c ^^^ gf8Mul 2 (entry b 3 c) := by
  have hline1 : entry (mixColumns b) 1 c =
      gf8Mul 2 (entry b 1 c) ^^^ gf8Mul 3 (entry b 2 c) ^^^ entry b 3 c ^^^ entry b 0 c := entry_mixColumns b 1 c
  have hline2 : entry (mixColumns b) 2 c =
      gf8Mul 2 (entry b 2 c) ^^^ gf8Mul 3 (entry b 3 c) ^^^ entry b 0 c ^^^ entry b 1 c := entry_mixColumns b 2 c
  have hline3 : entry (mixColumns b) 3 c =
      gf8Mul 2 (entry b 3 c) ^^^ gf8Mul 3 (entry b 0 c) ^^^ entry b 1 c ^^^ entry b 2 c := entry_mixColumns b 3 c
  exact ⟨entry_mixColumns b 0 c, hline1.trans (by ac_rfl), hline2.trans (by ac_rfl), hline3.trans (by ac_rfl)⟩

/-- Settles O49: each layer by the law of its entries, the example column by evaluating the four lines. -/
theorem roundLayersEntryByEntry : Obligations.RoundLayersEntryByEntry := by
  refine ⟨fun a => ⟨gf8Mul_two a, gf8Mul_three a⟩, fun b => ⟨entry_subBytes b, entry_shiftRows b, ?_⟩⟩
  rintro c _ _ _ _ rfl rfl rfl rfl
  obtain ⟨hline0, hline1, hline2, hline3⟩ := mixColumns_lines b c
  refine ⟨hline0, hline1, hline2, hline3, fun h0 h1 h2 h3 => ?_⟩
  rw [hline0, hline1, hline2, hline3, h0, h1, h2, h3]
  decide

/-! ### The block transform -/

/-- R163: the rounds 0 to 9 are determined by their equations. -/
theorem roundsTo_unique {w : List KeyWord} {input : Block} {b : Nat → Block} (h0 : b 0 = addRoundKey w 0 input)
    (hround : ∀ r, 1 ≤ r → r ≤ 9 → b r = addRoundKey w r (mixColumns (shiftRows (subBytes (b (r - 1))))))
    {r : Nat} (hr : r ≤ 9) : roundsTo w input r = b r := by
  induction r with
  | zero => exact h0.symm
  | succ r ih => rw [hround (r + 1) (by omega) hr, roundsTo, ih (by omega), Nat.add_sub_cancel]

/-- Settles O50: the sequence is `roundsTo`. -/
theorem blockTransformHasTenRounds : Obligations.BlockTransformHasTenRounds := by
  intro input key b h0 hround
  rw [encryptBlock, roundsTo_unique h0 hround le_rfl]

/-! ### AES_ENC -/

/-- Settles O8: the completion is the whole next state and keeps KEY and DIN, so that repeating it computes DOUT again. -/
theorem aesEncCompletes : Obligations.AesEncCompletes := by
  refine ⟨by decide, exec_aesEnc, by decide +kernel, by decide +kernel, by decide +kernel, fun s t u hs ht => ?_⟩
  cases (exec_aesEnc s).symm.trans hs
  cases (exec_aesEnc _).symm.trans ht
  rfl

end Sys2Proof.Machine
end

section
/-!
GF(2^128), GHASH, GMUL and GHASH_STEP (spec/42_ghash.md R200 to R207). The product is the sum of doublings that R203's loop
computes. The maps that keep sums and commute with doubling keep products by a fixed multiplier too, and multiplying is itself
such a map, from which the laws of R207 follow.
-/

namespace Sys2Proof.Machine

/-! ### Doubling -/

theorem mulx_of_not_out {a : Stream16} (h : bitAt (streamToBits a) 127 = false) :
    mulx a = bitsToStream (bitwiseRightShift (streamToBits a)) :=
  if_neg (Bool.eq_false_iff.mp h)

theorem mulx_of_out {a : Stream16} (h : bitAt (streamToBits a) 127 = true) :
    mulx a = streamXor (bitsToStream (bitwiseRightShift (streamToBits a))) reductionStream :=
  if_pos h

/-- R201: the reduction constant has no bit outside byte 0. -/
theorem byteAt_reductionStream : ∀ i < 16, byteAt reductionStream i = if i = 0 then 0xE1 else 0 := by decide

/-- R201: the bytes of the doubled stream when bit 127 falls out. -/
theorem byteAt_mulx_of_out {a : Stream16} (h : bitAt (streamToBits a) 127 = true) {i : Nat} (hi : i < 16) :
    byteAt (mulx a) i =
      byteAt (bitsToStream (bitwiseRightShift (streamToBits a))) i ^^^ if i = 0 then 0xE1 else 0 := by
  rw [mulx_of_out h, streamXor, byteAt_xor, byteAt_reductionStream i hi]

/-- Settles O51: both cases of the bit shifted out, the second one byte by byte. -/
theorem mulxReducesIntoByteZero : Obligations.MulxReducesIntoByteZero := by
  refine ⟨fun _ => mulx_of_not_out, fun a hout => ⟨byteAt_mulx_of_out hout (by omega), fun i hpos hle => ?_⟩,
    by decide, by decide, by decide⟩
  rw [byteAt_mulx_of_out hout (by omega), if_neg (by omega)]
  exact BitVec.xor_zero

/-! ### The product as a sum -/

theorem xorSum_congr {f g : Nat → Stream16} {n : Nat} (h : ∀ k < n, f k = g k) : xorSum f n = xorSum g n := by
  induction n with
  | zero => rfl
  | succ n ih => rw [xorSum, xorSum, ih fun k hk => h k (by omega), h n n.lt_succ_self]

theorem xorSum_xor (f g : Nat → Stream16) (n : Nat) :
    xorSum (fun k => f k ^^^ g k) n = xorSum f n ^^^ xorSum g n := by
  induction n with
  | zero => simp [xorSum]
  | succ n ih =>
    rw [xorSum, xorSum, xorSum, ih]
    ac_rfl

theorem selected_xor (b : Bool) (u v : Stream16) : selected b (u ^^^ v) = selected b u ^^^ selected b v := by
  cases b <;> simp [selected]

/-- R203: the loop over all bits of `x`. -/
theorem gmul_eq_xorSum (x y : Stream16) :
    gmul x y = xorSum (fun k => selected (x.getMsbD k) (mulx^[k] y)) 128 := by
  unfold gmul
  rw [gmulLoop_eq, zeroBlock]
  simp

/-- R203: adding on under a condition, in the order of the list, is the sum of the selected terms. -/
theorem foldl_range_eq_xorSum (p : Nat → Bool) (f : Nat → Stream16) (n : Nat) :
    (List.range n).foldl (fun z i => if p i then streamXor z (f i) else z) zeroBlock =
      xorSum (fun k => selected (p k) (f k)) n := by
  induction n with
  | zero => rfl
  | succ n ih =>
    rw [List.range_succ, List.foldl_append, ih, xorSum, List.foldl_cons, List.foldl_nil]
    cases p n <;> simp [selected, streamXor]

/-! ### Linear maps -/

/-- R200: `f` keeps sums and multiples of the element "x". -/
structure MulxLinear (f : Stream16 → Stream16) : Prop where
  map_xor : ∀ a b, f (a ^^^ b) = f a ^^^ f b
  map_mulx : Function.Commute f mulx

namespace MulxLinear

variable {f : Stream16 → Stream16}

theorem map_zero (hf : MulxLinear f) : f 0#128 = 0#128 := by
  have h := hf.map_xor 0#128 0#128
  rwa [BitVec.xor_self, BitVec.xor_self] at h

theorem map_selected (hf : MulxLinear f) (b : Bool) (a : Stream16) : f (selected b a) = selected b (f a) := by
  cases b
  · exact hf.map_zero
  · rfl

theorem map_xorSum (hf : MulxLinear f) (g : Nat → Stream16) (n : Nat) :
    f (xorSum g n) = xorSum (fun k => f (g k)) n := by
  induction n with
  | zero => exact hf.map_zero
  | succ n ih => rw [xorSum, hf.map_xor, ih, xorSum]

/-- R203: a linear map keeps the product by `x`, a sum of doublings. -/
theorem map_gmul (hf : MulxLinear f) (x a : Stream16) : f (gmul x a) = gmul x (f a) := by
  rw [gmul_eq_xorSum, gmul_eq_xorSum, hf.map_xorSum]
  refine xorSum_congr fun k _ => ?_
  rw [hf.map_selected, hf.map_mulx.iterate_right k a]

end MulxLinear

/-- R201: doubling is linear. -/
theorem mulxLinear_mulx : MulxLinear mulx := ⟨mulx_xor, .refl mulx⟩

theorem iterate_mulx_xor (k : Nat) (a b : Stream16) : mulx^[k] (a ^^^ b) = mulx^[k] a ^^^ mulx^[k] b := by
  induction k generalizing a b with
  | zero => rfl
  | succ k ih =>
    rw [Function.iterate_succ_apply, mulx_xor, ih, Function.iterate_succ_apply, Function.iterate_succ_apply]

theorem gmul_xor_right (x a b : Stream16) : gmul x (a ^^^ b) = gmul x a ^^^ gmul x b := by
  rw [gmul_eq_xorSum, gmul_eq_xorSum, gmul_eq_xorSum, ← xorSum_xor]
  refine xorSum_congr fun k _ => ?_
  rw [iterate_mulx_xor, selected_xor]

/-- R203: multiplying by `x` is linear. -/
theorem mulxLinear_gmul (x : Stream16) : MulxLinear (gmul x) :=
  ⟨gmul_xor_right x, fun a => (mulxLinear_mulx.map_gmul x a).symm⟩

/-! ### The element 1 -/

/-- R200: the element "1". -/
def gfOne : Stream16 := 0x80000000000000000000000000000000

/-- R200: the only coefficient of "1" is that of `x^0`. -/
theorem getMsbD_gfOne : ∀ j < 128, gfOne.getMsbD j = decide (j = 0) := by decide

/-- R200: the only coefficient of "1" shifted by `k` is that of `x^k`. -/
theorem getMsbD_gfOne_ushiftRight (k : Nat) {j : Nat} (hj : j < 128) : (gfOne >>> k).getMsbD j = decide (j = k) := by
  rw [BitVec.getMsbD_ushiftRight, getMsbD_gfOne _ (by omega), Bool.eq_iff_iff]
  simp only [Bool.and_eq_true, Bool.not_eq_true', decide_eq_true_eq, decide_eq_false_iff_not]
  omega

/-- R201: the first 127 doublings of "1" lose no bit. -/
theorem iterate_mulx_gfOne {k : Nat} (h : k < 128) : mulx^[k] gfOne = gfOne >>> k := by
  induction k with
  | zero => rfl
  | succ k ih =>
    rw [Function.iterate_succ_apply', ih (by omega), mulx_eq, getMsbD_gfOne_ushiftRight k (by omega),
      decide_eq_false (by omega), BitVec.shiftRight_add]
    exact BitVec.xor_zero

theorem getMsbD_selected (b : Bool) (a : Stream16) (j : Nat) : (selected b a).getMsbD j = (b && a.getMsbD j) := by
  cases b <;> simp [selected]

/-- R200: the sum of the powers of "x" that the first `n` bits of a stream select has those bits. -/
theorem getMsbD_xorSum_gfOne (x : Stream16) {n j : Nat} (hn : n ≤ 128) (hj : j < 128) :
    (xorSum (fun k => selected (x.getMsbD k) (mulx^[k] gfOne)) n).getMsbD j = (decide (j < n) && x.getMsbD j) := by
  induction n with
  | zero => simp [xorSum]
  | succ n ih =>
    rw [xorSum, BitVec.getMsbD_xor, ih (by omega), getMsbD_selected, iterate_mulx_gfOne (by omega),
      getMsbD_gfOne_ushiftRight n hj]
    rcases lt_trichotomy j n with hlt | rfl | hgt
    · simp [hlt, hlt.ne, Nat.lt_succ_of_lt hlt]
    · simp
    · simp [hgt.ne', hgt.not_gt, hgt.not_ge]

/-- R200: multiplying "1" by `x` reads off the bits of `x`. -/
theorem gmul_gfOne_right (x : Stream16) : gmul x gfOne = x := by
  refine BitVec.eq_of_getMsbD_eq fun j hj => ?_
  rw [gmul_eq_xorSum, getMsbD_xorSum_gfOne x le_rfl hj, decide_eq_true hj, Bool.true_and]

/-! ### The laws of the field -/

/-- R207: both sides are the linear maps `gmul x` and `gmul y` applied to "1". -/
theorem gmul_comm (x y : Stream16) : gmul x y = gmul y x :=
  calc gmul x y = gmul x (gmul y gfOne) := by rw [gmul_gfOne_right]
    _ = gmul y (gmul x gfOne) := (mulxLinear_gmul x).map_gmul y gfOne
    _ = gmul y x := by rw [gmul_gfOne_right]

theorem gmul_gfOne_left (y : Stream16) : gmul gfOne y = y :=
  (gmul_comm gfOne y).trans (gmul_gfOne_right y)

/-- R200, R203: the element "x" is the double of "1". -/
theorem gmul_mulx_gfOne (a : Stream16) : gmul (mulx gfOne) a = mulx a := by
  rw [gmul_comm, ← mulxLinear_mulx.map_gmul, gmul_gfOne_right]

/-- Settles O52: the loop's closed form, and "x" as the double of "1". -/
theorem gmulIsSumOfDoublings : Obligations.GmulIsSumOfDoublings :=
  ⟨fun x y => (gmul_eq_xorSum x y).trans (foldl_range_eq_xorSum x.getMsbD (fun k => mulx^[k] y) 128).symm,
    gmul_mulx_gfOne⟩

/-- Settles O53: each factor is its own product with "1", and linear maps keep products. -/
theorem gmulCommutative : Obligations.GmulCommutative := gmul_comm

/-- Settles O54: linearity in the second argument, and commutativity for the first. -/
theorem gmulDistributive : Obligations.GmulDistributive := by
  refine ⟨gmul_xor_right, fun x1 x2 y => ?_⟩
  rw [gmul_comm, streamXor, gmul_xor_right, gmul_comm y x1, gmul_comm y x2, streamXor]

/-- Settles O55: the linear map `gmul x` keeps the product by `z`. -/
theorem gmulAssociative : Obligations.GmulAssociative := fun x y z =>
  calc gmul (gmul x y) z = gmul z (gmul x y) := gmul_comm _ z
    _ = gmul x (gmul z y) := ((mulxLinear_gmul x).map_gmul z y).symm
    _ = gmul x (gmul y z) := by rw [gmul_comm z y]

/-! ### The commands -/

/-- Settles O9: the completion, and the products with zero and one; the examples by evaluation. -/
theorem gmulCompletes : Obligations.GmulCompletes := by
  refine ⟨by decide, exec_gmul, fun x y hzero => ?_, gmul_gfOne_left,
    by decide +kernel, by decide +kernel, by decide +kernel⟩
  rcases hzero with rfl | rfl
  · exact gmul_zero_left y
  · exact gmul_zero_right x

/-- R206: from any state the commands fold the blocks into GHY, in order, and keep HKEY. -/
theorem ghashByCommands_eq_foldl (xs : List Stream16) (s : State) :
    ∃ t, ghashByCommands s xs = .next t ∧ t.hkey = s.hkey ∧ t.ghy = xs.foldl (ghashFold s.hkey) s.ghy := by
  induction xs generalizing s with
  | nil => exact ⟨s, rfl, rfl, rfl⟩
  | cons x xs ih => exact ih { s with din := x, ghy := ghashFold s.hkey s.ghy x }.complete

/-- Settles O56: the fold from GHY = 0. -/
theorem ghashStepsComputeGhash : Obligations.GhashStepsComputeGhash := by
  rintro s h xs hghy rfl
  obtain ⟨t, hrun, hkey, hfold⟩ := ghashByCommands_eq_foldl xs s
  rw [hghy] at hfold
  exact ⟨t, hrun, hkey, hfold, hfold⟩

end Sys2Proof.Machine
end

section
/-!
The counter increment, the keystream generator, GCTR and INC32 (spec/43_gctr.md R230 to R233). A counter block is a nonce of
twelve bytes with the counter word behind it; `inc32` adds one to the counter word, from which its corner cases and its period
of 2^32 follow.
-/

namespace Sys2Proof.Machine

/-! ### Counter blocks -/

/-- R13: a word is the big-endian word of its bytes. -/
theorem be32_byteAt (v : KeyWord) : be32 (byteAt v 0) (byteAt v 1) (byteAt v 2) (byteAt v 3) = v := by
  obtain ⟨h0, h1, h2, h3⟩ := byteAt_be32 (byteAt v 0) (byteAt v 1) (byteAt v 2) (byteAt v 3)
  refine keyWord_ext fun i hi => ?_
  match i with
  | 0 => exact h0
  | 1 => exact h1
  | 2 => exact h2
  | 3 => exact h3

/-- A byte behind a sequence is the last digit, to base 256, of their number. -/
theorem toNat_append_byte {w : Nat} (x : BitVec w) (b : Byte) : (x ++ b).toNat = x.toNat * 2 ^ 8 + b.toNat := by
  rw [BitVec.toNat_append, Nat.shiftLeft_eq, mul_comm, Nat.two_pow_add_eq_or_of_lt b.isLt]

/-- R13: the number of a big-endian word. -/
theorem toNat_be32 (a b c d : Byte) :
    (be32 a b c d).toNat = a.toNat * 2 ^ 24 + b.toNat * 2 ^ 16 + c.toNat * 2 ^ 8 + d.toNat := by
  rw [be32, toNat_append_byte, toNat_append_byte, toNat_append_byte]
  ring

/-- R230: the counter word of a block is the word behind its first twelve bytes. -/
theorem counterWord_append (n : Stream12) (w : KeyWord) : counterWord (n ++ w) = w := by
  have hbyte {i : Nat} (h : i < 4) : byteAt (n ++ w) (12 + i) = byteAt w i :=
    byteAt_append_behind n w rfl (by omega)
  calc counterWord (n ++ w) = be32 (byteAt w 0) (byteAt w 1) (byteAt w 2) (byteAt w 3) := by
        rw [counterWord, ← hbyte (i := 0) (by omega), ← hbyte (i := 1) (by omega), ← hbyte (i := 2) (by omega),
          ← hbyte (i := 3) (by omega)]
    _ = w := be32_byteAt w

/-- R230: a counter block is its first twelve bytes with a word behind them. -/
theorem exists_eq_append (cb : Stream16) : ∃ (n : Stream12) (w : KeyWord), cb = n ++ w := by
  refine ⟨cb.extractLsb' 32 96, cb.extractLsb' 0 32, ?_⟩
  rw [BitVec.extractLsb'_append_extractLsb'_eq_extractLsb' (by omega), BitVec.extractLsb'_eq_self]

/-! ### The increment -/

/-- R230: the first twelve bytes stay. -/
theorem byteAt_inc32_of_lt (cb : Stream16) {i : Nat} (h : i < 12) : byteAt (inc32 cb) i = byteAt cb i := by
  rw [inc32, byteAt_stream16OfBytes _ (by omega), inc32Byte, if_pos h]

/-- R230: bytes 12 to 15 are those of the incremented counter word. -/
theorem byteAt_inc32_of_le (cb : Stream16) {i : Nat} (hle : 12 ≤ i) (hlt : i < 16) :
    byteAt (inc32 cb) i = byteAt (counterWord cb + 1) (i - 12) := by
  rw [inc32, byteAt_stream16OfBytes _ hlt, inc32Byte, if_neg (by omega)]

/-- R230: the increment adds one to the word behind the first twelve bytes and keeps these. -/
theorem inc32_append (n : Stream12) (w : KeyWord) : inc32 (n ++ w) = n ++ (w + 1) := by
  refine stream16_ext fun i hi => ?_
  by_cases hfront : i < 12
  · rw [byteAt_inc32_of_lt _ hfront, byteAt_append_front _ _ (by omega), byteAt_append_front _ _ (by omega)]
  · obtain ⟨j, rfl⟩ := Nat.exists_eq_add_of_le (Nat.le_of_not_lt hfront)
    rw [byteAt_inc32_of_le _ (by omega) hi, counterWord_append, Nat.add_sub_cancel_left]
    exact (byteAt_append_behind n (w + 1) rfl (by omega)).symm

theorem counterWord_inc32 (cb : Stream16) : counterWord (inc32 cb) = counterWord cb + 1 := by
  obtain ⟨n, w, rfl⟩ := exists_eq_append cb
  rw [inc32_append, counterWord_append, counterWord_append]

/-- R233: `k` increments add `k` to the counter word. -/
theorem iterate_inc32_append (k : Nat) (n : Stream12) (w : KeyWord) :
    inc32^[k] (n ++ w) = n ++ (w + BitVec.ofNat 32 k) := by
  induction k with
  | zero => rw [Function.iterate_zero_apply, BitVec.add_zero]
  | succ k ih =>
    rw [Function.iterate_succ_apply', ih, inc32_append, BitVec.ofNat_add, ← BitVec.add_assoc]
    rfl

/-- R233: 2^32 increments are the identity. -/
theorem iterate_inc32_two_pow (cb : Stream16) : inc32^[2 ^ 32] cb = cb := by
  obtain ⟨n, w, rfl⟩ := exists_eq_append cb
  have hperiod : BitVec.ofNat 32 (2 ^ 32) = 0#32 := by decide
  rw [iterate_inc32_append, hperiod, BitVec.add_zero]

/-- Settles O57: the four bytes are the number of the counter word. -/
theorem inc32AddsOneToTheCounterWord : Obligations.Inc32AddsOneToTheCounterWord := by
  refine fun cb => ⟨fun _ => byteAt_inc32_of_lt cb, ?_⟩
  rw [← toNat_be32, ← toNat_be32]
  exact (congrArg BitVec.toNat (counterWord_inc32 cb)).trans (BitVec.toNat_add _ _)

/-! ### The keystream -/

/-- R231, R232: the output's byte is the input's byte and the keystream's. -/
theorem byteAt_gctr (key icb p : Stream16) (i : Nat) :
    byteAt (gctr key icb p) i = byteAt p i ^^^ byteAt (encryptBlock icb key) i :=
  byteAt_xor p (encryptBlock icb key) i

/-- R232: the zero block gives the keystream block. -/
theorem gctr_zeroBlock (key icb : Stream16) : gctr key icb zeroBlock = encryptBlock icb key :=
  BitVec.zero_xor

/-- R260: the keystream cancels against itself. -/
theorem gctr_gctr (key icb p : Stream16) : gctr key icb (gctr key icb p) = p := by
  rw [gctr, gctr, streamXor, streamXor, BitVec.xor_assoc, BitVec.xor_self, BitVec.xor_zero]

/-- Settles O58: the equation is the definition of `gctr`, and a second pass undoes the first. -/
theorem gctrIsItsOwnInverse : Obligations.GctrIsItsOwnInverse :=
  fun key icb p => ⟨rfl, gctr_gctr key icb p⟩

/-! ### The commands -/

/-- Settles O11: the completion, and the laws of keystream and counter word; the examples by evaluation. -/
theorem gctrCompletes : Obligations.GctrCompletes := by
  refine ⟨by decide, exec_gctr, gctr_zeroBlock, fun key icb p q n _ hagree i hi => ?_,
    fun n => inc32_append n 0xffffffff#32, by decide +kernel, by decide +kernel⟩
  rw [byteAt_gctr, byteAt_gctr, hagree i hi]

/-- Settles O12: the completion, and the laws of the counter word; the example by evaluation. -/
theorem inc32Completes : Obligations.Inc32Completes :=
  ⟨by decide, exec_inc32, fun n => ⟨inc32_append n _, inc32_append n _, inc32_append n _, inc32_append n _⟩,
    fun cb _ => byteAt_inc32_of_lt cb, iterate_inc32_two_pow, by decide +kernel⟩

end Sys2Proof.Machine
end

section
/-!
The AES-GCM composition: its two counter blocks and its length block, AES_GCM_ENC, and the program of single commands that
computes the same (spec/44_aes_gcm.md R250 to R259).
-/

namespace Sys2Proof.Machine

/-! ### The fixed blocks -/

/-- R252: the two bit lengths as one stream. -/
theorem lengthBlock_eq : lengthBlock = 0x00000000000000800000000000000080 := by decide

/-- R251: the IV's bytes come first. -/
theorem byteAt_initialCounter_of_lt (iv : Stream12) {i : Nat} (h : i < 12) :
    byteAt (initialCounter iv) i = byteAt iv i :=
  byteAt_append_front iv _ (by omega)

/-- R251: the counter word behind the IV is one. -/
theorem byteAt_initialCounter_behind (iv : Stream12) {i : Nat} (h : i < 4) :
    byteAt (initialCounter iv) (12 + i) = byteAt 0x00000001#32 i :=
  byteAt_append_behind iv _ rfl (by omega)

/-- R253: the plaintext's counter block has counter word two. -/
theorem inc32_initialCounter (iv : Stream12) : inc32 (initialCounter iv) = iv ++ 0x00000002#32 :=
  inc32_append iv 0x00000001#32

/-- R230: the increment changes the counter word, so no block is its own increment. -/
theorem inc32_ne (cb : Stream16) : inc32 cb ≠ cb := fun heq => by
  have hword : counterWord cb + 1 = counterWord cb := (counterWord_inc32 cb).symm.trans (congrArg counterWord heq)
  exact absurd (add_eq_left.mp hword) (by decide)

/-- Settles O59: a counter block is the IV with a counter word behind it, one in J0 and two in its increment. -/
theorem counterBlocksOfGcm : Obligations.CounterBlocksOfGcm :=
  ⟨fun iv => ⟨fun _ => byteAt_initialCounter_of_lt iv,
      byteAt_initialCounter_behind iv (i := 0) (by decide), byteAt_initialCounter_behind iv (i := 1) (by decide),
      byteAt_initialCounter_behind iv (i := 2) (by decide), byteAt_initialCounter_behind iv (i := 3) (by decide)⟩,
    fun iv => ⟨inc32_initialCounter iv, inc32_ne _⟩, lengthBlock_eq⟩

/-! ### AES_GCM_ENC -/

/-- R204: the hash of one block is its product with H. -/
theorem ghash_singleton (h x : Stream16) : ghash h [x] = gmul x h :=
  congrArg (gmul · h) BitVec.zero_xor

/-- R257: the completion with the length block and the keystreams written out. -/
theorem exec_aesGcmEnc_of_eq {s : State} {j0 c y : Stream16} (hj0 : j0 = s.iv ++ 0x00000001#32)
    (hc : c = streamXor s.din (encryptBlock (inc32 j0) s.key))
    (hy : y = ghash (encryptBlock zeroBlock s.key) [s.aad, c, 0x00000000000000800000000000000080]) :
    exec .aesGcmEnc s = .next { s with dout := c, tag := streamXor y (encryptBlock j0 s.key) }.complete := by
  subst hj0 hc hy
  rw [← lengthBlock_eq]
  exact exec_aesGcmEnc s

/-- R322: C of the all-zero operands. -/
theorem gcmCiphertext_zero : gcmCiphertext 0 0 0 = 0x0388dace60b6a392f328c2b971b2fe78 := by decide +kernel

/-- R322: T of the all-zero operands. -/
theorem gcmTag_zero : gcmTag 0 0 0 0x0388dace60b6a392f328c2b971b2fe78 = 0xd24e503a1bb037071c71b35d987b8657 := by
  decide +kernel

/-- Settles O13: the completion is the pseudocode's, the zero block multiplies to zero, and reset's operands are all zero. -/
theorem aesGcmEncCompletes : Obligations.AesGcmEncCompletes := by
  refine ⟨by decide, ?_, fun h => (ghash_singleton h zeroBlock).trans (gmul_zero_left h), ?_⟩
  · rintro s _ j0 c y _ rfl hj0 hc hy rfl
    exact exec_aesGcmEnc_of_eq hj0 hc hy
  · have hc : gcmCiphertext State.reset.key State.reset.iv State.reset.din = _ := gcmCiphertext_zero
    have ht : gcmTag State.reset.key State.reset.iv State.reset.aad _ = _ := gcmTag_zero
    rw [exec_aesGcmEnc, hc, ht]
    rfl

/-! ### The program of single commands -/

/-- R102: no command writes KEY. -/
theorem exec_keeps_key {i : Instr} {s t : State} (h : exec i s = .next t) : t.key = s.key := by
  cases i <;> cases h <;> rfl

/-- R102: no command writes HKEY. -/
theorem exec_keeps_hkey {i : Instr} {s t : State} (h : exec i s = .next t) : t.hkey = s.hkey := by
  cases i <;> cases h <;> rfl

/-- R165: AES_ENC's output. -/
theorem dout_of_exec_aesEnc {s t : State} (h : exec .aesEnc s = .next t) : t.dout = encryptBlock s.din s.key := by
  cases (exec_aesEnc s).symm.trans h
  rfl

/-- R232: GCTR's output. -/
theorem dout_of_exec_gctr {s t : State} (h : exec .gctr s = .next t) : t.dout = gctr s.key s.ctr s.din := by
  cases (exec_gctr s).symm.trans h
  rfl

/-- R233: INC32's output. -/
theorem ctr_of_exec_inc32 {s t : State} (h : exec .inc32 s = .next t) : t.ctr = inc32 s.ctr := by
  cases (exec_inc32 s).symm.trans h
  rfl

/-- R206: the GHASH_STEPs write GHY and load DIN; KEY stays. -/
theorem ghashByCommands_keeps_key {s t : State} {xs : List Stream16} (h : ghashByCommands s xs = .next t) :
    t.key = s.key := by
  induction xs generalizing s with
  | nil => cases h; rfl
  | cons x xs ih => exact ih (s := { s with din := x, ghy := ghashFold s.hkey s.ghy x }.complete) h

/-- R204, R206: GHASH_STEPs from GHY = 0 leave the hash under HKEY in GHY. -/
theorem ghashByCommands_ghy {s t : State} {xs : List Stream16} (h : ghashByCommands s xs = .next t)
    (hghy : s.ghy = zeroBlock) : t.ghy = ghash s.hkey xs := by
  obtain ⟨u, hrun, -, -, hhash⟩ := ghashStepsComputeGhash s s.hkey xs hghy rfl
  cases hrun.symm.trans h
  exact hhash

/-- Settles O60: KEY stays throughout and HKEY from the load of H on, so that the units compute the C, S and T of R257. -/
theorem gcmEqualsItsUnits : Obligations.GcmEqualsItsUnits := by
  intro s s1 s2 s3 s4 s5 s6 hsubkey hinc hcipher hghash htag hgcm
  -- `(e :)` takes the states from the hypothesis; the goal shows only the fields of a loaded one.
  have hkey2 : s2.key = s.key := calc
    s2.key = s1.key := (exec_keeps_key hinc :)
    _ = s.key := (exec_keeps_key hsubkey :)
  have hkey4 : s4.key = s.key := calc
    s4.key = s3.key := (ghashByCommands_keeps_key hghash :)
    _ = s2.key := (exec_keeps_key hcipher :)
    _ = s.key := hkey2
  have hh : s3.hkey = hashSubkey s.key := calc
    s3.hkey = s2.hkey := (exec_keeps_hkey hcipher :)
    _ = s1.dout := (exec_keeps_hkey hinc :)
    _ = hashSubkey s.key := (dout_of_exec_aesEnc hsubkey :)
  have hc : s3.dout = gctr s.key (inc32 (initialCounter s.iv)) s.din := calc
    s3.dout = gctr s2.key s2.ctr s.din := (dout_of_exec_gctr hcipher :)
    _ = gctr s.key (inc32 (initialCounter s.iv)) s.din := by rw [hkey2, (ctr_of_exec_inc32 hinc :), initialCounter]
  have hs : s4.ghy = ghash (hashSubkey s.key) [s.aad, s3.dout, 0x00000000000000800000000000000080] := calc
    s4.ghy = ghash s3.hkey _ := (ghashByCommands_ghy hghash rfl :)
    _ = ghash (hashSubkey s.key) _ := by rw [hh]
  have ht : s5.dout = streamXor s4.ghy (encryptBlock (initialCounter s.iv) s.key) := calc
    s5.dout = gctr s4.key (initialCounter s.iv) s4.ghy := (dout_of_exec_gctr htag :)
    _ = streamXor s4.ghy (encryptBlock (initialCounter s.iv) s.key) := by rw [hkey4, gctr]
  cases (exec_aesGcmEnc_of_eq rfl hc hs).symm.trans hgcm
  exact ⟨rfl, ht.symm⟩

end Sys2Proof.Machine
end

section
/-!
The interrupt output: a function of the enables, DONE and ERR, so the write that lowers them lowers it in the same step
(spec/60_exceptions.md R286, R289).
-/

namespace Sys2Proof.Machine

/-- R286: the formula of `irq`, read as a condition. -/
theorem State.irq_eq_true_iff (s : State) :
    s.irq = true ↔ (s.ieDone = true ∧ s.done = true) ∨ (s.ieErr = true ∧ s.err = true) := by
  rw [State.irq, Bool.or_eq_true, Bool.and_eq_true, Bool.and_eq_true]

/-- R286: the log of a transaction has no part in `irq`. -/
@[simp] theorem State.recorded_irq (s : State) (x : Txn) (r : Response) : (s.recorded x r).irq = s.irq := rfl

/-- R289: a write of 1 to both flags of STATUS leaves neither cause of `irq`. -/
theorem State.writeStatus_irq_eq_false {v : Word} (hdone : v.getLsbD 1 = true) (herr : v.getLsbD 2 = true) (s : State) :
    (s.writeStatus v).irq = false := by
  rw [State.irq, State.writeStatus_done, State.writeStatus_err, if_pos hdone, if_pos herr, Bool.and_false,
    Bool.and_false]
  rfl

/-- R34, R286: a write of 0 to both enables of CTRL leaves neither cause of `irq` enabled. -/
theorem State.writeCtrl_irq_eq_false {v : Word} (hdone : v.getLsbD 0 = false) (herr : v.getLsbD 1 = false) (s : State) :
    (s.writeCtrl v).irq = false := by
  rw [State.irq, State.writeCtrl_ieDone, State.writeCtrl_ieErr, hdone, herr]
  rfl

/-- Settles O37: the formula as a condition; ACK writes 1 to both flags, and a CTRL write of 0 clears both enables. -/
theorem interruptFollowsStatusAndEnables : Obligations.InterruptFollowsStatusAndEnables := by
  refine ⟨State.irq_eq_true_iff, fun s rest hturn => ⟨_, step_writeStatus hturn, ?_⟩,
    fun s rest hturn => ⟨_, step_writeCtrl hturn, ?_⟩⟩
  · rw [State.recorded_irq]
    exact State.writeStatus_irq_eq_false (by decide) (by decide) _
  · rw [State.recorded_irq]
    exact State.writeCtrl_irq_eq_false (by decide) (by decide) _

end Sys2Proof.Machine
end

section
/-!
The end of a run: who moves next in a legal state, and the number of steps that a host program without a WAIT loop still takes
(spec/70_reset_and_hazards.md R340, R345).
-/

namespace Sys2Proof.Machine

/-! ### The moves of a legal state -/

/-- R84: unless the run is over, the engine or the host moves next. -/
theorem State.turn_cases {s : State} (hlegal : s.legal = true) :
    s.RunOver ∨ (∃ i, s.EngineTurn i) ∨ ∃ e rest, s.HostTurn e rest := by
  obtain ⟨hop, -⟩ := s.legal_iff.1 hlegal
  cases hbusy : s.busy with
  | false =>
    cases hpending : s.pending with
    | nil => exact .inl ⟨hpending, hbusy⟩
    | cons e rest => exact .inr (.inr ⟨e, rest, hlegal, hpending, by simp [hbusy]⟩)
  | true =>
    obtain ⟨i, hi⟩ := Option.isSome_iff_exists.1 (hop.symm.trans hbusy)
    cases hpending : s.pending with
    | nil => exact .inr (.inl ⟨i, hlegal, hi, .inr hpending⟩)
    | cons e rest =>
      by_cases hlag : s.lag = 0
      · exact .inr (.inl ⟨i, hlegal, hi, .inl hlag⟩)
      · exact .inr (.inr ⟨e, rest, hlegal, hpending, fun _ => hlag⟩)

/-- R58: the command in flight that the engine's turn completes makes BUSY 1. -/
theorem State.EngineTurn.busy {s : State} {i : Instr} (hturn : s.EngineTurn i) : s.busy = true := by
  obtain ⟨hlegal, hi, -⟩ := hturn
  obtain ⟨hop, -⟩ := s.legal_iff.1 hlegal
  rw [hop, hi, Option.isSome_some]

/-- R305: a run that is over stays where it is. -/
theorem step_runOver {s : State} (hlegal : s.legal = true) (hover : s.RunOver) : step s = .next s := by
  obtain ⟨hpending, hbusy⟩ := hover
  obtain ⟨hop, -⟩ := s.legal_iff.1 hlegal
  have hnone : s.curOp = none := by simpa [hbusy] using hop.symm
  unfold step
  rw [s.nextMove_idle_iff.2 ⟨hlegal, hnone, hpending⟩]

/-- R7, R320: the host's event is taken from the queue for good, unless it is a WAIT. -/
theorem State.hostMove_pending (s : State) {e : HostEvent} (hwait : e ≠ .wait) (rest : List HostEvent) :
    (s.hostMove e rest).pending = rest := by
  have htxn (x : Txn) : ((s.taken rest).runTxn x).pending = rest := ((s.taken rest).afterTxn_hostSide x).1
  rcases s.hostMove_cases e rest with ⟨x, -, hm⟩ | ⟨rfl, -⟩ | ⟨rfl, -⟩ | ⟨u, -, hm⟩ | ⟨x, -, hm⟩
  · rw [hm, htxn]
  · exact absurd rfl hwait
  · exact absurd rfl hwait
  · rw [hm, State.applyReset_pending, State.taken_pending]
  · rw [hm, State.applyReset_pending, htxn]

/-- R107: a program without a WAIT loop begins with another event and goes on without one. -/
theorem hasWait_cons_eq_false_iff (e : HostEvent) (rest : List HostEvent) :
    hasWait (e :: rest) = false ↔ e ≠ .wait ∧ hasWait rest = false := by
  simp [hasWait]

/-! ### The steps left -/

/-- R340: a bound on the steps until the run is over: each event of the host takes a step and leaves at most one command in
flight, whose completion takes another. -/
def State.stepsLeft (s : State) : Nat := 2 * s.pending.length + s.busy.toNat

theorem State.stepsLeft_eq_zero_iff (s : State) : s.stepsLeft = 0 ↔ s.RunOver := by
  simp [State.stepsLeft]

/-- R54: a completion leaves the queue and clears BUSY. -/
theorem State.stepsLeft_of_engine {s t : State} {i : Instr} (hturn : s.EngineTurn i) (hexec : exec i s = .next t) :
    t.pending = s.pending ∧ t.stepsLeft < s.stepsLeft := by
  obtain ⟨ghy, ctr, dout, tag, hs⟩ := exec_shape i s
  cases hs.symm.trans hexec
  refine ⟨rfl, ?_⟩
  simp [State.stepsLeft, hturn.busy]

/-- R52: a host event other than WAIT shortens the queue, and BUSY grows by at most 1. -/
theorem State.stepsLeft_of_host {s : State} {e : HostEvent} {rest : List HostEvent} (hpending : s.pending = e :: rest)
    (hwait : e ≠ .wait) : (s.hostMove e rest).stepsLeft < s.stepsLeft := by
  have hbusy := (s.hostMove e rest).busy.toNat_le
  simp only [State.stepsLeft, s.hostMove_pending hwait, hpending, List.length_cons]
  omega

/-- R340: from a legal state without a WAIT pending, a step is made, no WAIT comes into the queue, and fewer steps are left unless
none were. -/
theorem exists_step_stepsLeft {s : State} (hlegal : s.legal = true) (hwait : hasWait s.pending = false) :
    ∃ t, step s = .next t ∧ hasWait t.pending = false ∧ t.stepsLeft ≤ s.stepsLeft - 1 := by
  rcases State.turn_cases hlegal with hover | ⟨i, hturn⟩ | ⟨e, rest, hturn⟩
  · refine ⟨s, step_runOver hlegal hover, hwait, ?_⟩
    rw [s.stepsLeft_eq_zero_iff.2 hover]
  · obtain ⟨ghy, ctr, dout, tag, hexec⟩ := exec_shape i s
    obtain ⟨hpending, hless⟩ := State.stepsLeft_of_engine hturn hexec
    exact ⟨_, (step_engine hturn).trans hexec, hpending ▸ hwait, Nat.le_sub_one_of_lt hless⟩
  · obtain ⟨-, hpending, -⟩ := id hturn
    rw [hpending, hasWait_cons_eq_false_iff] at hwait
    obtain ⟨hne, hrest⟩ := hwait
    exact ⟨_, step_host hturn, (s.hostMove_pending hne rest).symm ▸ hrest,
      Nat.le_sub_one_of_lt (State.stepsLeft_of_host hpending hne)⟩

/-! ### The whole run -/

/-- R340, R345: a run with no fewer steps than are left ends with the run over. -/
theorem run_over_of_stepsLeft_le {n : Nat} {s : State} (hlegal : s.legal = true) (hwait : hasWait s.pending = false)
    (hn : s.stepsLeft ≤ n) : ∃ t, core.run n s = .next t ∧ t.RunOver := by
  induction n generalizing s with
  | zero => exact ⟨s, rfl, s.stepsLeft_eq_zero_iff.1 (Nat.le_zero.1 hn)⟩
  | succ n ih =>
    obtain ⟨u, hstep, hwait', hless⟩ := exists_step_stepsLeft hlegal hwait
    obtain ⟨t, hrun, hover⟩ := ih (step_legal hstep) hwait' (by omega)
    exact ⟨t, (run_succ hstep).trans hrun, hover⟩

/-- Settles O24: two steps for each event, and one for a command in flight at the start. -/
theorem everyRunEnds : Obligations.EveryRunEnds := fun s hlegal hwait =>
  run_over_of_stepsLeft_le hlegal hwait (Nat.add_le_add_left s.busy.toNat_le _)

end Sys2Proof.Machine
end
